-- ==== Sys2Proof/Word.lean ====
section
/-! DEFINITION. The words of the charLCD block: bytes, request words, LCD instruction words (00_scope.md R11, 30_encoding.md R81, R87). -/

namespace Sys2Proof

/-- An unsigned 8-bit value: a character code, a parameter, a bus byte (R11). -/
abbrev Byte := BitVec 8

/-- A host request word REQ16 (R81). -/
abbrev Req16 := BitVec 16

/-- An LCD instruction word: rs in bit 8, the byte in bits 7..0 (R87). -/
abbrev LcdWord := BitVec 9

/-- The transport's answer to one bus write (00_scope.md R10, 60_exceptions.md R234). -/
inductive Answer where
  | ack
  | nack
deriving DecidableEq, Repr, Inhabited

/-- The four timing parameters a delay marker can name (60_exceptions.md R244). -/
inductive DelayName where
  | powerOnWait
  | initNibbleDelay
  | clearSettle
  | homeSettle
deriving DecidableEq, Repr

/-- Register select: command (rs = 0) or data (rs = 1) (R17, R87). -/
inductive Mode where
  | cmd
  | data
deriving DecidableEq, Repr

end Sys2Proof
end

