-- ==== Sys2Proof/Syntax.lean ====
section
/-! DEFINITION. The instructions: one constructor per row of spec/opcode_table.json, and the coded forms they arrive in. -/

namespace Sys2Proof

/-- The 13 host requests (30_encoding.md R83, R84) and the 10 LCD instruction words (R88). -/
inductive Instr where
  /-- INIT, a = device address (42_initialization.md R160). -/
  | init (a : Byte)
  /-- SET_ROW, w = wrap, a = row, text = the payload (43_display_memory_ops.md R182). -/
  | setRow (w : Bool) (a : Byte) (text : List Byte)
  /-- REFRESH (R187). -/
  | refresh
  /-- CLEAR (R189). -/
  | clear
  /-- HOME (R191). -/
  | home
  /-- SET_BACKLIGHT, e = enabled (44_passthrough_ops.md R210). -/
  | setBacklight (e : Bool)
  /-- SET_ENTRY_MODE, p = parameter byte (R211). -/
  | setEntryMode (p : Byte)
  /-- SET_DISPLAY_CONTROL (R212). -/
  | setDisplayControl (p : Byte)
  /-- SET_SHIFT (R213). -/
  | setShift (p : Byte)
  /-- SET_FUNCTION (R214). -/
  | setFunction (p : Byte)
  /-- SET_CGRAM_ADDR (R215). -/
  | setCgramAddr (p : Byte)
  /-- WRITE_DATA, d = data byte (R216). -/
  | writeData (d : Byte)
  /-- RESERVED: op 0xC to 0xF with any other bits and any payload (30_encoding.md R94). -/
  | reserved (op : BitVec 4) (w : Bool) (z : BitVec 3) (a : Byte) (payload : List Byte)
  /-- LCD_CLEAR (40_command_encoder.md R123). -/
  | lcdClear
  /-- LCD_HOME, u = byte bit 0 (R124). -/
  | lcdHome (u : Bool)
  /-- LCD_ENTRY_MODE, i = direction, s = shift-enable (R125). -/
  | lcdEntryMode (i s : Bool)
  /-- LCD_DISPLAY_CONTROL, d = display on, c = cursor on, b = blink on (R126). -/
  | lcdDisplayControl (d c b : Bool)
  /-- LCD_SHIFT, t = target (display), r = direction (right), u = byte bits 1..0 (R127). -/
  | lcdShift (t r : Bool) (u : BitVec 2)
  /-- LCD_FUNCTION_SET, l = 8-bit mode, n = 2 lines, f = 5x10 dots, u = byte bits 1..0 (R128). -/
  | lcdFunctionSet (l n f : Bool) (u : BitVec 2)
  /-- LCD_SET_CGRAM_ADDR (R129). -/
  | lcdSetCgramAddr (a : BitVec 6)
  /-- LCD_SET_DDRAM_ADDR (R130). -/
  | lcdSetDdramAddr (a : BitVec 7)
  /-- LCD_WRITE_DATA (R131). -/
  | lcdWriteData (d : Byte)
  /-- LCD_NULL, the backlight push (R132). -/
  | lcdNull
deriving DecidableEq, Repr

/-- An instruction as bits: a REQ16 word with its payload on the host's request channel (30_encoding.md R81,
R82), or an LCD instruction word at the bit-banger's input (R87). -/
inductive Code where
  | request (word : Req16) (payload : List Byte)
  | lcd (word : LcdWord)
deriving DecidableEq, Repr

end Sys2Proof
end

