-- ==== Sys2Proof/WellFormed.lean ====
section
/-! DEFINITION. Which terms of Instr are instructions of the table, and which use documented parameter values only. -/

namespace Sys2Proof

/-- RESERVED stands for op 0xC to 0xF only (30_encoding.md R83, R94). -/
def reservedOp (op : BitVec 4) : Bool := decide (12 ≤ op.toNat)

/-- The term is an instruction of the opcode table. Every other operand's type admits exactly the
values its field has (30_encoding.md R84; R122: no parameter validation). -/
def Instr.wf : Instr → Bool
  | .reserved op _ _ _ _ => reservedOp op
  | .init _ => true
  | .setRow _ _ _ => true
  | .refresh => true
  | .clear => true
  | .home => true
  | .setBacklight _ => true
  | .setEntryMode _ => true
  | .setDisplayControl _ => true
  | .setShift _ => true
  | .setFunction _ => true
  | .setCgramAddr _ => true
  | .writeData _ => true
  | .lcdClear => true
  | .lcdHome _ => true
  | .lcdEntryMode _ _ => true
  | .lcdDisplayControl _ _ _ => true
  | .lcdShift _ _ _ => true
  | .lcdFunctionSet _ _ _ _ => true
  | .lcdSetCgramAddr _ => true
  | .lcdSetDdramAddr _ => true
  | .lcdWriteData _ => true
  | .lcdNull => true

/-- The instruction uses only the documented operand values of 40_command_encoder.md R121 and R125 to R129, a row
in 0..3 without wrap (43_display_memory_ops.md R183, R184), and no bit that an LCD word marks `-` (30_encoding.md R88).
The block does not check any of this (R122); it is what a careful host keeps to. -/
def Instr.documented : Instr → Bool
  | .setRow w a _ => !w && decide (a.toNat ≤ 3)
  | .setEntryMode p => p &&& 0xFC == 0
  | .setDisplayControl p => p &&& 0xF8 == 0
  | .setShift p => p &&& 0xF3 == 0
  | .setFunction p => p &&& 0xE3 == 0
  | .setCgramAddr p => p &&& 0xC0 == 0
  | .reserved _ _ _ _ _ => false
  | .lcdHome u => !u
  | .lcdShift _ _ u => u == 0
  | .lcdFunctionSet _ _ _ u => u == 0
  | .lcdNull => false
  | .init _ => true
  | .refresh => true
  | .clear => true
  | .home => true
  | .setBacklight _ => true
  | .writeData _ => true
  | .lcdClear => true
  | .lcdEntryMode _ _ => true
  | .lcdDisplayControl _ _ _ => true
  | .lcdSetCgramAddr _ => true
  | .lcdSetDdramAddr _ => true
  | .lcdWriteData _ => true

end Sys2Proof
end

