-- ==== Sys2Proof/Decode.lean ====
section
/-! DEFINITION. The decoder of both coded forms, total and rejecting by name; the opcode table; the encoder. -/

namespace Sys2Proof

/-! ## Fields -/

/-- REQ16 fields (30_encoding.md R81). -/
def reqOp (w : Req16) : BitVec 4 := w.extractLsb' 12 4
def reqWrap (w : Req16) : Bool := w.getLsbD 11
def reqZ (w : Req16) : BitVec 3 := w.extractLsb' 8 3
def reqArg (w : Req16) : Byte := w.extractLsb' 0 8

/-- A REQ16 word from its fields: op << 12 | w << 11 | z << 8 | a (30_encoding.md R81, R97). -/
def packReq16 (op : BitVec 4) (w : Bool) (z : BitVec 3) (a : Byte) : Req16 :=
  op.setWidth 16 <<< 12 ||| (BitVec.ofBool w).setWidth 16 <<< 11 ||| z.setWidth 16 <<< 8 ||| a.setWidth 16

/-- LCD word fields (30_encoding.md R87). -/
def lcdRs (w : LcdWord) : Bool := w.getLsbD 8
def lcdByte (w : LcdWord) : Byte := w.extractLsb' 0 8

/-- An LCD word from rs and the byte (R87). -/
def packLcd (rs : Bool) (b : Byte) : LcdWord := (BitVec.ofBool rs).setWidth 9 <<< 8 ||| b.setWidth 9

/-- Bit `i` of a byte, set or clear: a one-bit field of an LCD byte. -/
def bitAt (i : Nat) (v : Bool) : Byte := (BitVec.ofBool v).setWidth 8 <<< i

/-! ## Decoding -/

/-- Why a code is no instruction. -/
inductive DecodeError where
  /-- A field or payload that 30_encoding.md R84 requires to be zero or empty is not (R94). -/
  | reservedField
deriving DecidableEq, Repr

/-- The decoder's answer. -/
inductive Decoded where
  | instr (i : Instr)
  | rejected (e : DecodeError)
deriving DecidableEq, Repr

/-- The instruction, where the fields R84 requires to be zero or empty are so. -/
def ifClean (ok : Bool) (i : Instr) : Decoded :=
  if ok then .instr i else .rejected .reservedField

/-- Decode a host request (30_encoding.md R93, R94). SET_ROW alone takes a wrap flag and a payload; RESERVED_OP comes
before RESERVED_FIELD (60_exceptions.md R232), so a reserved op decodes whatever its other bits are. -/
def decodeRequest (w : Req16) (p : List Byte) : Decoded :=
  let op := reqOp w
  let a := reqArg w
  let zClean : Bool := reqZ w == 0
  let clean : Bool := zClean && !reqWrap w && p.isEmpty
  if op = 0x0 then ifClean clean (.init a)
  else if op = 0x1 then ifClean zClean (.setRow (reqWrap w) a p)
  else if op = 0x2 then ifClean (clean && a == 0) .refresh
  else if op = 0x3 then ifClean (clean && a == 0) .clear
  else if op = 0x4 then ifClean (clean && a == 0) .home
  else if op = 0x5 then ifClean (clean && a.extractLsb' 1 7 == 0) (.setBacklight (a.getLsbD 0))
  else if op = 0x6 then ifClean clean (.setEntryMode a)
  else if op = 0x7 then ifClean clean (.setDisplayControl a)
  else if op = 0x8 then ifClean clean (.setShift a)
  else if op = 0x9 then ifClean clean (.setFunction a)
  else if op = 0xA then ifClean clean (.setCgramAddr a)
  else if op = 0xB then ifClean clean (.writeData a)
  else .instr (.reserved op (reqWrap w) (reqZ w) a p)

/-- Decode an LCD word: data when rs = 1, else by the byte's highest set bit (30_encoding.md R88, 20_memory.md R74). -/
def decodeLcd (w : LcdWord) : Instr :=
  if lcdRs w then .lcdWriteData (lcdByte w)
  else if w.getLsbD 7 then .lcdSetDdramAddr (w.extractLsb' 0 7)
  else if w.getLsbD 6 then .lcdSetCgramAddr (w.extractLsb' 0 6)
  else if w.getLsbD 5 then .lcdFunctionSet (w.getLsbD 4) (w.getLsbD 3) (w.getLsbD 2) (w.extractLsb' 0 2)
  else if w.getLsbD 4 then .lcdShift (w.getLsbD 3) (w.getLsbD 2) (w.extractLsb' 0 2)
  else if w.getLsbD 3 then .lcdDisplayControl (w.getLsbD 2) (w.getLsbD 1) (w.getLsbD 0)
  else if w.getLsbD 2 then .lcdEntryMode (w.getLsbD 1) (w.getLsbD 0)
  else if w.getLsbD 1 then .lcdHome (w.getLsbD 0)
  else if w.getLsbD 0 then .lcdClear
  else .lcdNull

/-- Decode either coded form. -/
def decode : Code → Decoded
  | .request w p => decodeRequest w p
  | .lcd w => .instr (decodeLcd w)

/-! ## The host's view of a table row -/

/-- `n` payload bytes from the bits of `w`, the least significant byte first. -/
def payloadOfWord : Nat → Nat → List Byte
  | 0, _ => []
  | n + 1, w => BitVec.ofNat 8 w :: payloadOfWord n (w / 256)

/-- The code whose bits are `w`, of `nbits` bits: up to 9 bits are an LCD word, more are a REQ16 word, and bits above
the sixteenth are payload bytes, the first lowest (log 8, log 18). -/
def codeOfTableWord (nbits w : Nat) : Code :=
  if nbits ≤ 9 then .lcd (BitVec.ofNat 9 w)
  else .request (BitVec.ofNat 16 w) (payloadOfWord ((nbits - 16 + 7) / 8) (w / 65536))

/-- The instruction the decoder reads from a table row's word, none where it rejects it. -/
def decodeTableWord (nbits w : Nat) : Option Instr :=
  match decode (codeOfTableWord nbits w) with
  | .instr i => some i
  | .rejected _ => none

/-! ## Encoding -/

/-- The bytes of the LCD command rows (30_encoding.md R88, opcode_table.json's lcd_word rows). -/
def lcdHomeByte (u : Bool) : Byte := 0x02 ||| bitAt 0 u
def lcdEntryModeByte (i s : Bool) : Byte := 0x04 ||| bitAt 1 i ||| bitAt 0 s
def lcdDisplayControlByte (d c b : Bool) : Byte := 0x08 ||| bitAt 2 d ||| bitAt 1 c ||| bitAt 0 b
def lcdShiftByte (t r : Bool) (u : BitVec 2) : Byte := 0x10 ||| bitAt 3 t ||| bitAt 2 r ||| u.setWidth 8
def lcdFunctionSetByte (l n f : Bool) (u : BitVec 2) : Byte :=
  0x20 ||| bitAt 4 l ||| bitAt 3 n ||| bitAt 2 f ||| u.setWidth 8
def lcdSetCgramAddrByte (a : BitVec 6) : Byte := 0x40 ||| a.setWidth 8
def lcdSetDdramAddrByte (a : BitVec 7) : Byte := 0x80 ||| a.setWidth 8

/-- The code of an instruction (30_encoding.md R81 to R84, R88). -/
def encode : Instr → Code
  | .init a => .request (packReq16 0x0 false 0 a) []
  | .setRow w a text => .request (packReq16 0x1 w 0 a) text
  | .refresh => .request (packReq16 0x2 false 0 0) []
  | .clear => .request (packReq16 0x3 false 0 0) []
  | .home => .request (packReq16 0x4 false 0 0) []
  | .setBacklight e => .request (packReq16 0x5 false 0 (bitAt 0 e)) []
  | .setEntryMode p => .request (packReq16 0x6 false 0 p) []
  | .setDisplayControl p => .request (packReq16 0x7 false 0 p) []
  | .setShift p => .request (packReq16 0x8 false 0 p) []
  | .setFunction p => .request (packReq16 0x9 false 0 p) []
  | .setCgramAddr p => .request (packReq16 0xA false 0 p) []
  | .writeData d => .request (packReq16 0xB false 0 d) []
  | .reserved op w z a payload => .request (packReq16 op w z a) payload
  | .lcdClear => .lcd (packLcd false 0x01)
  | .lcdHome u => .lcd (packLcd false (lcdHomeByte u))
  | .lcdEntryMode i s => .lcd (packLcd false (lcdEntryModeByte i s))
  | .lcdDisplayControl d c b => .lcd (packLcd false (lcdDisplayControlByte d c b))
  | .lcdShift t r u => .lcd (packLcd false (lcdShiftByte t r u))
  | .lcdFunctionSet l n f u => .lcd (packLcd false (lcdFunctionSetByte l n f u))
  | .lcdSetCgramAddr a => .lcd (packLcd false (lcdSetCgramAddrByte a))
  | .lcdSetDdramAddr a => .lcd (packLcd false (lcdSetDdramAddrByte a))
  | .lcdWriteData d => .lcd (packLcd true d)
  | .lcdNull => .lcd (packLcd false 0x00)

/-! ## The opcode table -/

/-- The two formats of opcode_table.json. -/
inductive Format where
  | hostReq16
  | lcdWord
deriving DecidableEq, Repr

/-- One row of spec/opcode_table.json: its mnemonic, format, match and mask. -/
structure OpcodeRow where
  mnemonic : String
  format : Format
  matchBits : Nat
  mask : Nat
deriving DecidableEq, Repr

/-- The host_req16 rows of spec/opcode_table.json. -/
def hostRows : List OpcodeRow := [
  ⟨"INIT", .hostReq16, 0x0000, 0xFF00⟩, ⟨"SET_ROW", .hostReq16, 0x1000, 0xF700⟩,
  ⟨"REFRESH", .hostReq16, 0x2000, 0xFFFF⟩, ⟨"CLEAR", .hostReq16, 0x3000, 0xFFFF⟩,
  ⟨"HOME", .hostReq16, 0x4000, 0xFFFF⟩, ⟨"SET_BACKLIGHT", .hostReq16, 0x5000, 0xFFFE⟩,
  ⟨"SET_ENTRY_MODE", .hostReq16, 0x6000, 0xFF00⟩, ⟨"SET_DISPLAY_CONTROL", .hostReq16, 0x7000, 0xFF00⟩,
  ⟨"SET_SHIFT", .hostReq16, 0x8000, 0xFF00⟩, ⟨"SET_FUNCTION", .hostReq16, 0x9000, 0xFF00⟩,
  ⟨"SET_CGRAM_ADDR", .hostReq16, 0xA000, 0xFF00⟩, ⟨"WRITE_DATA", .hostReq16, 0xB000, 0xFF00⟩,
  ⟨"RESERVED", .hostReq16, 0xC000, 0xC000⟩]

/-- The lcd_word rows of spec/opcode_table.json. -/
def lcdRows : List OpcodeRow := [
  ⟨"LCD_CLEAR", .lcdWord, 0x001, 0x1FF⟩, ⟨"LCD_HOME", .lcdWord, 0x002, 0x1FE⟩,
  ⟨"LCD_ENTRY_MODE", .lcdWord, 0x004, 0x1FC⟩, ⟨"LCD_DISPLAY_CONTROL", .lcdWord, 0x008, 0x1F8⟩,
  ⟨"LCD_SHIFT", .lcdWord, 0x010, 0x1F0⟩, ⟨"LCD_FUNCTION_SET", .lcdWord, 0x020, 0x1E0⟩,
  ⟨"LCD_SET_CGRAM_ADDR", .lcdWord, 0x040, 0x1C0⟩, ⟨"LCD_SET_DDRAM_ADDR", .lcdWord, 0x080, 0x180⟩,
  ⟨"LCD_WRITE_DATA", .lcdWord, 0x100, 0x100⟩, ⟨"LCD_NULL", .lcdWord, 0x000, 0x1FF⟩]

/-- A row's fixed bits are all as the row has them in the word. -/
def OpcodeRow.matchesWord (r : OpcodeRow) (w : Nat) : Bool := w &&& r.mask == r.matchBits

/-- No word matches both rows: a bit fixed in both differs. -/
def OpcodeRow.disjoint (r q : OpcodeRow) : Bool := r.matchBits &&& q.mask != q.matchBits &&& r.mask

/-- A code's word, as the number the table's match and mask are about. -/
def Code.wordNat : Code → Nat
  | .request w _ => w.toNat
  | .lcd w => w.toNat

/-- A code's format and the rows of that format. -/
def Code.rows : Code → List OpcodeRow
  | .request _ _ => hostRows
  | .lcd _ => lcdRows

/-- The mnemonic of an instruction's row, as the table spells it. -/
def Instr.mnemonic : Instr → String
  | .init _ => "INIT"
  | .setRow _ _ _ => "SET_ROW"
  | .refresh => "REFRESH"
  | .clear => "CLEAR"
  | .home => "HOME"
  | .setBacklight _ => "SET_BACKLIGHT"
  | .setEntryMode _ => "SET_ENTRY_MODE"
  | .setDisplayControl _ => "SET_DISPLAY_CONTROL"
  | .setShift _ => "SET_SHIFT"
  | .setFunction _ => "SET_FUNCTION"
  | .setCgramAddr _ => "SET_CGRAM_ADDR"
  | .writeData _ => "WRITE_DATA"
  | .reserved _ _ _ _ _ => "RESERVED"
  | .lcdClear => "LCD_CLEAR"
  | .lcdHome _ => "LCD_HOME"
  | .lcdEntryMode _ _ => "LCD_ENTRY_MODE"
  | .lcdDisplayControl _ _ _ => "LCD_DISPLAY_CONTROL"
  | .lcdShift _ _ _ => "LCD_SHIFT"
  | .lcdFunctionSet _ _ _ _ => "LCD_FUNCTION_SET"
  | .lcdSetCgramAddr _ => "LCD_SET_CGRAM_ADDR"
  | .lcdSetDdramAddr _ => "LCD_SET_DDRAM_ADDR"
  | .lcdWriteData _ => "LCD_WRITE_DATA"
  | .lcdNull => "LCD_NULL"

end Sys2Proof
end

