-- ==== Sys2Proof/Config.lean ====
section
/-! DEFINITION. What is fixed for one block instance (00_scope.md R8 to R10, 10_state.md R34), and the values the spec leaves open. -/

namespace Sys2Proof

/-- The parameters of one block instance that 00_scope.md R9 lets a model take as arguments.
Every rule is written in terms of them; no request writes any of them (10_state.md R34). -/
structure Config where
  /-- Expander bit that carries the register select. -/
  rsMask : Byte
  /-- Expander bit of the read/write line; the block never sets it (30_encoding.md R86). -/
  rwMask : Byte
  /-- Expander bit of the enable strobe. -/
  enMask : Byte
  /-- Expander bit of the backlight enable. -/
  blMask : Byte
  selClear : Byte
  selHome : Byte
  selEntry : Byte
  selDispctl : Byte
  selShift : Byte
  selFunction : Byte
  selCgram : Byte
  selDdram : Byte
  /-- The code of a blank cell. -/
  space : Byte
  /-- CLEAR_SETTLE in microseconds; HOME_SETTLE is the same (R9). -/
  clearSettle : Nat
  /-- Does CLEAR also blank the mirror (43_display_memory_ops.md R190)? -/
  clearResetsMirror : Bool
  /-- BACKLIGHT_RESET: the backlight bit after RESET and INIT. -/
  backlightReset : Bool
deriving DecidableEq, Repr

/-- CLEAR_SETTLE_MIN, 1.52 ms, in microseconds (R8). -/
abbrev Config.clearSettleMin : Nat := 1520

/-- The defaults of R9 and of 40_command_encoder.md R120. The masks, the select values and SPACE are the
spec's own general-knowledge values (93_implementation_defined.md GK2, GK5, GK6). -/
def Config.default : Config where
  rsMask := 0x01
  rwMask := 0x02
  enMask := 0x04
  blMask := 0x08
  selClear := 0x01
  selHome := 0x02
  selEntry := 0x04
  selDispctl := 0x08
  selShift := 0x10
  selFunction := 0x20
  selCgram := 0x40
  selDdram := 0x80
  space := 0x20
  clearSettle := 10000
  clearResetsMirror := false
  backlightReset := true

/-- A configuration the spec allows: RS, RW, EN and BL are four different ones of expander bits 3..0
(bits 7..4 are the data field, R9), and CLEAR_SETTLE is at least CLEAR_SETTLE_MIN (R9).
DEDUCED from R9 and R85 (log 19). -/
def Config.wf (c : Config) : Bool :=
  [c.rsMask, c.rwMask, c.enMask, c.blMask].all (fun m => [0x01#8, 0x02, 0x04, 0x08].contains m) &&
  decide [c.rsMask, c.rwMask, c.enMask, c.blMask].Nodup &&
  decide (Config.clearSettleMin ≤ c.clearSettle)

/-- The transport's answer to the n-th bus write, once the answers held in State are used up: an arbitrary
draw (R10, 60_exceptions.md R234, 93_implementation_defined.md U13). Free value, no body (log 2). -/
opaque Config.transportAnswer : Nat → Answer

/-- POWER_ON_WAIT in microseconds: OPEN, the source names no unit (R10, U10). Free value (log 16). -/
opaque Config.powerOnWait : Nat

/-- INIT_NIBBLE_DELAY in microseconds: OPEN (R10, U10). Free value (log 16). -/
opaque Config.initNibbleDelay : Nat

/-- Does the n-th byte on the bus reach the expander when it was NACKed? Both must be admitted
(60_exceptions.md R235, 93_implementation_defined.md U6). Free value (log 13). -/
opaque Config.nackedByteArrives : Nat → Bool

/-- The receiver's DDRAM pointer after a return-home command, which 20_memory.md R74 names without
saying where it goes. Free value (log 13). -/
opaque Config.pointerAfterHome : Nat → BitVec 7

/-- Does the receiver's pointer stand in DDRAM after a cursor or display shift, and where in either memory? R74 names the
command without an effect on the pointer. Free values (log 13). -/
opaque Config.shiftEndsInDdram : Nat → Bool
opaque Config.ddramAfterShift : Nat → BitVec 7
opaque Config.cgramAfterShift : Nat → BitVec 6

/-- Where the receiver's pointer goes when it moves past an end of its memory: 20_memory.md R75 says only
that it moves by one. Free values (log 13). -/
opaque Config.ddramPastEnd : Nat → BitVec 7
opaque Config.cgramPastEnd : Nat → BitVec 6

/-- Which DDRAM address a cell of the screen shows, by its number, since the n-th byte moved the picture or left the
line mode open: 20_memory.md R66 (c), 70_reset_and_hazards.md R269 and R272 (U17, U18) say that the mapping changes,
not how. Free value (log 22). -/
opaque Config.shownAddress : Nat → Nat → BitVec 7

/-- The rs of a pair whose two nibbles carry different rs bits: 20_memory.md R73 pairs nibbles of one rs
only. Free value (log 13). -/
opaque Config.mixedPairRs : Nat → Bool

/-- ROWS, COLS and CELLS (R8). -/
abbrev Config.rows : Nat := 4
abbrev Config.cols : Nat := 20
abbrev Config.cells : Nat := 80

/-- ROW_BASE, the controller address of column 0 of each row (R8, 20_memory.md R58). -/
def Config.rowBase : List Nat := [128, 192, 148, 212]

/-- The named time of a delay marker, in microseconds (70_reset_and_hazards.md R275); HOME_SETTLE is
CLEAR_SETTLE (R9). -/
def Config.delayTime (c : Config) : DelayName → Nat
  | .powerOnWait => Config.powerOnWait
  | .initNibbleDelay => Config.initNibbleDelay
  | .clearSettle => c.clearSettle
  | .homeSettle => c.clearSettle

end Sys2Proof
end

