-- ==== Sys2Proof/Machine/State.lean ====
section
/-! DEFINITION. The state of the block and of its interfaces, the reasons a step can stop, and the state after reset. -/

namespace Sys2Proof.Machine

/-- The initialization state machine (10_state.md R24). -/
inductive InitState where
  | uninit
  | forcing
  | ready
deriving DecidableEq, Repr

/-- A grid coordinate (row, column). Rows 0..3 and columns 0..19 are valid (10_state.md R32); the range is an invariant,
so that REFRESH's coordinate check (43_display_memory_ops.md R187) can be stated as the spec states it. -/
structure Coord where
  row : Nat
  col : Nat
deriving DecidableEq, Repr

/-- Why a request is refused (60_exceptions.md R231). -/
inductive Reason where
  | halted
  | reservedOp
  | reservedField
  | notReady
  | wrapUnimplemented
deriving DecidableEq, Repr

/-- The status of a request (60_exceptions.md R230). An invalid coordinate reports the row, and the column where REFRESH met it
(R237); the status word has no room for them (30_encoding.md R100, log 10). -/
inductive Status where
  | ok
  | transportError
  | refused (r : Reason)
  | invalidCoordinate (row : Nat) (col : Option Nat)
deriving DecidableEq, Repr

/-- One event of the trace (00_scope.md R14): a bus write of `b` to `dev` with the transport's answer
(`W b`, `W b !`), or a delay marker (`D K`). -/
inductive Event where
  | write (dev b : Byte) (answer : Answer)
  | delay (k : DelayName)
deriving DecidableEq, Repr

/-- What the outside puts before the block: the RESET input (70_reset_and_hazards.md R260) or an instruction's code
(30_encoding.md R80; the bit-banger's own input, log 7). -/
inductive Input where
  | reset
  | code (c : Code)
deriving DecidableEq, Repr

/-- Cells of one byte by number, in canonical form: numbers strictly rising, none with the value an unlisted cell reads as
(`Memory.wf` in Machine/Ops.lean). -/
abbrev Memory := List Host.Cell

/-- The state: the block's fields (10_state.md R23), its configuration (R34) and its five interfaces (30_encoding.md R80). -/
structure State where
  /-- The instance's parameters; no step writes them (R34, log 4). -/
  cfg : Config
  /-- R24. -/
  initState : InitState
  /-- The backlight bit (R25). -/
  bl : Bool
  /-- R26. -/
  cursor : Coord
  /-- The bus device identifier (R27). -/
  devAddr : Byte
  /-- A bus write has failed since the last INIT or RESET (R28). -/
  linkUnknown : Bool
  /-- The sticky fatal state after InvalidCoordinate (R29). -/
  halted : Bool
  /-- The display memory mirror (R30): cell (r, c) under number 20 r + c, an unlisted cell reads SPACE (log 3). -/
  grid : Memory
  /-- The dirty list, oldest entry first (R31). -/
  dirty : List Coord
  /-- What the outside has put before the block, next one first. -/
  inputs : List Input
  /-- The statuses returned, oldest first. -/
  replies : List Status
  /-- The bus writes and delay markers, oldest first. -/
  trace : List Event
  /-- The transport's coming answers, next one first; when it is used up `Config.transportAnswer` goes on (log 2). -/
  answers : List Answer
  /-- How many answers have been drawn: the model's own counter (log 2). -/
  draws : Nat
deriving DecidableEq, Repr

/-- Reasons to stop with a fault. There is none: every request of the block ends with a status and the block takes the next one
(60_exceptions.md R230, R240, R241; log 12). -/
inductive Fault where
deriving DecidableEq, Repr

/-- Reasons to stop with a refusal. -/
inductive Refusal where
  /-- Raised by an arm of exec whose instruction has no meaning yet; safe. No arm raises it (log 12). -/
  | notModelled (mnemonic : String)
deriving DecidableEq, Repr

/-- The outcome of a step. -/
abbrev Outcome := Host.Outcome State Fault Refusal

/-- `dev_addr` after RESET, which the spec leaves unspecified (70_reset_and_hazards.md R261, U16). DESIGN CHOICE, unsafe (log 1). -/
def devAddrAtReset : Byte := 0x00

/-- The state right after RESET (10_state.md R23, 70_reset_and_hazards.md R261), of an instance with the default parameters
(00_scope.md R9), with nothing yet on any interface. -/
def State.reset : State where
  cfg := Config.default
  initState := .uninit
  bl := true
  cursor := ⟨0, 0⟩
  devAddr := 0x00
  linkUnknown := false
  halted := false
  grid := []
  dirty := []
  inputs := []
  replies := []
  trace := []
  answers := []
  draws := 0

end Sys2Proof.Machine
end

