-- ==== Sys2Proof/Machine/Ops.lean ====
section
/-! DEFINITION. The operations the meanings share: grid memory, dirty list, bus writes and delays, the end of a request, errors,
refusals and RESET. -/

namespace Sys2Proof.Machine

/-! ## Cells by number -/

/-- The value of cell `k`; an unlisted cell reads `blank`. -/
def Memory.read (blank : Byte) : Memory → Nat → Byte
  | [], _ => blank
  | (a, b) :: m, k => if k = a then b else Memory.read blank m k

/-- Put a value before the rest of a memory, leaving it out where it is what an unlisted cell reads as. -/
def Memory.put (blank : Byte) (k : Nat) (v : Byte) (m : Memory) : Memory :=
  if v = blank then m else (k, v) :: m

/-- Write cell `k`, keeping the canonical form. -/
def Memory.write (blank : Byte) : Memory → Nat → Byte → Memory
  | [], k, v => Memory.put blank k v []
  | (a, b) :: m, k, v =>
    if k < a then Memory.put blank k v ((a, b) :: m)
    else if k = a then Memory.put blank k v m
    else (a, b) :: Memory.write blank m k v

/-- The canonical form: cell numbers strictly rising, no cell listed with the blank value. -/
def Memory.wf (blank : Byte) : Memory → Bool
  | [] => true
  | (a, b) :: m => decide (b ≠ blank) && m.all (fun c => decide (a < c.1)) && Memory.wf blank m

/-! ## The grid and the dirty list -/

/-- Row in 0..3 and column in 0..19 (10_state.md R32 (a), 43_display_memory_ops.md R187). -/
def Coord.valid (x : Coord) : Bool := decide (x.row < Config.rows) && decide (x.col < Config.cols)

/-- The number under which a cell is held: row by row (log 3). -/
def Coord.cell (x : Coord) : Nat := Config.cols * x.row + x.col

/-- `grid[r][c]`, one 8-bit code (00_scope.md R13, 20_memory.md R56). -/
def State.cellAt (s : State) (x : Coord) : Byte := Memory.read s.cfg.space s.grid x.cell

/-- `grid[r][c] <- v` (R13). -/
def State.writeCell (s : State) (x : Coord) (v : Byte) : State :=
  { s with grid := Memory.write s.cfg.space s.grid x.cell v }

/-- `grid[r][c] <- SPACE for all r, c` (42_initialization.md R161, 43_display_memory_ops.md R190): a memory with nothing listed. -/
def State.blankGrid (s : State) : State := { s with grid := [] }

/-- Append a coordinate to the dirty list unless it is there already (43_display_memory_ops.md R185). -/
def State.markDirty (s : State) (x : Coord) : State :=
  if x ∈ s.dirty then s else { s with dirty := s.dirty ++ [x] }

/-! ## Bus writes and delays -/

/-- The transport's answer to the `k`-th bus write from here (00_scope.md R10, 60_exceptions.md R234). -/
def State.answerAt (s : State) (k : Nat) : Answer :=
  match s.answers[k]? with
  | some a => a
  | none => Config.transportAnswer (s.draws + k)

/-- `raise E(info)` and `refuse(reason)` (00_scope.md R13): the two error classes (60_exceptions.md R230) and a refusal. -/
inductive Raise where
  | transport
  | coordinate (row : Nat) (col : Option Nat)
  | refuse (r : Reason)
deriving DecidableEq, Repr

/-- How far the body of a request came: to its end, or to the statement that raised; the effects before it stay (60_exceptions.md R236). -/
inductive Run where
  | done (s : State)
  | raised (e : Raise) (s : State)
deriving DecidableEq, Repr

/-- One statement after another: after a raise no later statement runs (R236). -/
def Run.andThen : Run → (State → Run) → Run
  | .done s, f => f s
  | .raised e s, _ => .raised e s

/-- Record one bus write to `dev_addr` with the answer the transport gives it, and use that answer up (00_scope.md R13, R14). -/
def State.written (s : State) (b : Byte) : State :=
  { s with
    trace := s.trace ++ [.write s.devAddr b (s.answerAt 0)]
    answers := s.answers.tail
    draws := s.draws + 1 }

/-- `BusWrite(b)`: one transport write; a NACK raises TransportError (R13, 60_exceptions.md R234). -/
def busWrite (b : Byte) (s : State) : Run :=
  match s.answerAt 0 with
  | .ack => .done (s.written b)
  | .nack => .raised .transport (s.written b)

/-- `Delay(K)`: append a delay marker (R13). -/
def State.delay (s : State) (k : DelayName) : State := { s with trace := s.trace ++ [.delay k] }

/-! ## The end of a request -/

/-- Return a status to the host (30_encoding.md R80, R100). -/
def State.reply (s : State) (st : Status) : State := { s with replies := s.replies ++ [st] }

/-- An error or a refusal ends the request: what it records and the status it returns. TransportError sets
`link_unknown` (60_exceptions.md R235), InvalidCoordinate sets `halted` (R238), a refusal records nothing (R233). -/
def State.takeError (s : State) : Raise → State
  | .transport => { s with linkUnknown := true }.reply .transportError
  | .coordinate row col => { s with halted := true }.reply (.invalidCoordinate row col)
  | .refuse r => s.reply (.refused r)

/-- The end of a request's body: status OK, or the error taken. -/
def Run.finish : Run → State
  | .done s => s.reply .ok
  | .raised e s => s.takeError e

/-- The pre-checks that depend on the state (60_exceptions.md R232): HALTED first, then NOT_READY where the request needs READY. -/
def State.gate (s : State) (needsReady : Bool) : Option Reason :=
  if s.halted then some .halted
  else if needsReady && decide (s.initState ≠ .ready) then some .notReady
  else none

/-- A request: its pre-checks, then its body to its end or its first error. -/
def runRequest (needsReady : Bool) (body : State → Run) (s : State) : State :=
  match s.gate needsReady with
  | some r => s.takeError (.refuse r)
  | none => (body s).finish

/-- A request that is refused for its encoding with reason `r`, HALTED coming first (30_encoding.md R94, 60_exceptions.md R232). -/
def refuseEncoding (r : Reason) (s : State) : State :=
  if s.halted then s.takeError (.refuse .halted) else s.takeError (.refuse r)

/-! ## RESET -/

/-- The RESET input: every field of the block at its RESET value (70_reset_and_hazards.md R260, R261). No bus write, no marker, no
status; the configuration and the interfaces are as they were. It is the way back from the halted state (60_exceptions.md R238, R241). -/
def State.resetInput (s : State) : State :=
  { s with
    initState := .uninit
    bl := s.cfg.backlightReset
    cursor := ⟨0, 0⟩
    devAddr := devAddrAtReset
    linkUnknown := false
    halted := false
    grid := []
    dirty := [] }

end Sys2Proof.Machine
end

