-- ==== Sys2Proof/Machine/BitBanger.lean ====
section
/-! DEFINITION. The bit-banger (41_bit_banger.md): a byte as two nibbles, a nibble as three bus writes. -/

namespace Sys2Proof.Machine

/-- `modebit(mode)` (R140). -/
def modeBit (c : Config) : Mode → Byte
  | .cmd => 0
  | .data => c.rsMask

/-- `hi(b)`: the high nibble in bits 7..4 (R141). -/
def hiNibble (b : Byte) : Byte := b &&& 0xF0

/-- `lo(b)`: the low nibble in bits 7..4 (R141). -/
def loNibble (b : Byte) : Byte := (b <<< 4) &&& 0xF0

/-- `blb`: the backlight bit as every bus write carries it (R142, R144). -/
def blBits (c : Config) (bl : Bool) : Byte := if bl then c.blMask else 0

/-- `write4bits(x)`: setup, enable high, enable low (R142). -/
def write4bits (x : Byte) (s : State) : Run :=
  let v := x ||| blBits s.cfg s.bl
  ((busWrite v s).andThen
    (busWrite (v ||| s.cfg.enMask))).andThen
    (busWrite (v &&& ~~~s.cfg.enMask))

/-- `send(b, mode)`: high nibble first, both with the mode bit (R143). -/
def send (b : Byte) (m : Mode) (s : State) : Run :=
  (write4bits (hiNibble b ||| modeBit s.cfg m) s).andThen
    (write4bits (loNibble b ||| modeBit s.cfg m))

/-- Serialise an LCD instruction word: rs chooses the mode (30_encoding.md R87). -/
def sendWord (w : LcdWord) (s : State) : Run :=
  send (lcdByte w) (if lcdRs w then .data else .cmd) s

end Sys2Proof.Machine
end

