-- ==== Sys2Proof/Machine/Flags.lean ====
section
/-! DEFINITION. The block has no condition flags (10_state.md R22); what it has instead: the parameter flag values of the command
encoder (40_command_encoder.md R121) and the status word (30_encoding.md R100). -/

namespace Sys2Proof.Machine

/-- The documented parameter flags (40_command_encoder.md R121). -/
inductive ParamFlag where
  | entryIncrement | entryDecrement
  | entryShiftOn | entryShiftOff
  | displayOn | displayOff
  | cursorOn | cursorOff
  | blinkOn | blinkOff
  | shiftDisplay | shiftCursor
  | shiftRight | shiftLeft
  | mode8Bit | mode4Bit
  | lines2 | lines1
  | dots5x10 | dots5x8
deriving DecidableEq, Repr

/-- The value of a parameter flag (R121). -/
def ParamFlag.value : ParamFlag → Byte
  | .entryIncrement => 0x02
  | .entryDecrement => 0x00
  | .entryShiftOn => 0x01
  | .entryShiftOff => 0x00
  | .displayOn => 0x04
  | .displayOff => 0x00
  | .cursorOn => 0x02
  | .cursorOff => 0x00
  | .blinkOn => 0x01
  | .blinkOff => 0x00
  | .shiftDisplay => 0x08
  | .shiftCursor => 0x00
  | .shiftRight => 0x04
  | .shiftLeft => 0x00
  | .mode8Bit => 0x10
  | .mode4Bit => 0x00
  | .lines2 => 0x08
  | .lines1 => 0x00
  | .dots5x10 => 0x04
  | .dots5x8 => 0x00

/-- A parameter byte: the OR of its flags (30_encoding.md R89). -/
def paramByte (flags : List ParamFlag) : Byte := flags.foldl (fun p f => p ||| f.value) 0

/-- INIT's display setting (42_initialization.md R165). -/
def initDisplayParam : Byte := paramByte [.displayOn, .cursorOff, .blinkOff]

/-- The reason's code (60_exceptions.md R231). -/
def Reason.code : Reason → BitVec 3
  | .halted => 1
  | .reservedOp => 2
  | .reservedField => 3
  | .notReady => 4
  | .wrapUnimplemented => 5

/-- The status's code (60_exceptions.md R230). -/
def Status.code : Status → BitVec 2
  | .ok => 0
  | .transportError => 1
  | .refused _ => 2
  | .invalidCoordinate _ _ => 3

/-- The status word: status in bits 1:0, reason in bits 4:2, the rest 0 (30_encoding.md R100). -/
def Status.word (st : Status) : Byte :=
  let reason : BitVec 3 := match st with
    | .refused r => r.code
    | _ => 0
  reason.setWidth 8 <<< 2 ||| st.code.setWidth 8

/-- The encoding of `init_state` (10_state.md R24). -/
def InitState.code : InitState → BitVec 2
  | .uninit => 0
  | .forcing => 1
  | .ready => 2

end Sys2Proof.Machine
end

