-- ==== Sys2Proof/Machine/Encoder.lean ====
section
/-! DEFINITION. The command encoder (40_command_encoder.md): pure functions from a logical command to its byte. -/

namespace Sys2Proof.Machine

/-- `ENC_CLEAR()` (R123). -/
def encClear (c : Config) : Byte := c.selClear

/-- `ENC_HOME()` (R124). -/
def encHome (c : Config) : Byte := c.selHome

/-- `ENC_ENTRY(p)` (R125); no parameter validation (R122). -/
def encEntry (c : Config) (p : Byte) : Byte := c.selEntry ||| p

/-- `ENC_DISPCTL(p)` (R126). -/
def encDispctl (c : Config) (p : Byte) : Byte := c.selDispctl ||| p

/-- `ENC_SHIFT(p)` (R127). -/
def encShift (c : Config) (p : Byte) : Byte := c.selShift ||| p

/-- `ENC_FUNCTION(p)` (R128). -/
def encFunction (c : Config) (p : Byte) : Byte := c.selFunction ||| p

/-- `ENC_CGRAM(p)` (R129). -/
def encCgram (c : Config) (p : Byte) : Byte := c.selCgram ||| p

/-- `ENC_DDRAM(p)` (R130). -/
def encDdram (c : Config) (p : Byte) : Byte := c.selDdram ||| p

/-- The null command (R132). -/
def encNull : Byte := 0x00

end Sys2Proof.Machine
end

