-- ==== Sys2Proof/Machine/Operands.lean ====
section
/-! DEFINITION. Operand assembly: the row address map, the row operand, text normalisation. -/

namespace Sys2Proof.Machine

/-- `addr(r, c) = ROW_BASE[r] + c`, the controller address of a cell (20_memory.md R58, 43_display_memory_ops.md R180, R192 (d)): a table
look-up, evaluated only for valid coordinates. -/
def controllerAddr (x : Coord) : Nat := Config.rowBase.getD x.row 0 + x.col

/-- The controller address as the 8-bit operand of set-DDRAM (30_encoding.md R90); it fits (R180). -/
def ddramOperand (x : Coord) : Byte := BitVec.ofNat 8 (controllerAddr x)

/-- SET_ROW's row operand, zero-extended (30_encoding.md R91). -/
abbrev rowOperand (a : Byte) : Nat := a.toNat

/-- `normalize(P) = take(20, P ++ repeat(20, SPACE))` (43_display_memory_ops.md R181, R192 (e)). -/
def normalizeText (space : Byte) (text : List Byte) : List Byte :=
  (text ++ List.replicate Config.cols space).take Config.cols

end Sys2Proof.Machine
end

