-- ==== Sys2Proof/Machine/Display.lean ====
section
/-! DEFINITION. SET_ROW, REFRESH, CLEAR and HOME (43_display_memory_ops.md). -/

namespace Sys2Proof.Machine

/-- One column of SET_ROW: where the code differs, write the cell and mark it dirty (R182, R185; so R192 (a) and (b)). -/
def setCell (x : Coord) (v : Byte) (s : State) : State :=
  if s.cellAt x = v then s else (s.writeCell x v).markDirty x

/-- SET_ROW's columns from `c` on, ascending (R182; the order of R192 (a)). -/
def setCells (r : Nat) : Nat → List Byte → State → State
  | _, [], s => s
  | c, v :: t, s => setCells r (c + 1) t (setCell ⟨r, c⟩ v s)

/-- SET_ROW's body: wrap refused first (R183), then the row range (R184), then the 20 columns. -/
def setRowBody (w : Bool) (a : Byte) (text : List Byte) (s : State) : Run :=
  if w then .raised (.refuse .wrapUnimplemented) s
  else if rowOperand a > 3 then .raised (.coordinate (rowOperand a) none) s
  else .done (setCells (rowOperand a) 0 (normalizeText s.cfg.space text) s)

/-- One entry of REFRESH: the coordinate check, one set-DDRAM command, one write of the stored code (R187; so R192 (c), and its 12 bus writes,
R192 (h)). -/
def refreshEntry (x : Coord) (s : State) : Run :=
  if x.valid then
    (send (encDdram s.cfg (ddramOperand x)) .cmd s).andThen fun s' => send (s'.cellAt x) .data s'
  else .raised (.coordinate x.row (some x.col)) s

/-- REFRESH's walk of the dirty list, in list order (R187). -/
def refreshEntries : List Coord → State → Run
  | [], s => .done s
  | x :: xs, s => (refreshEntry x s).andThen (refreshEntries xs)

/-- REFRESH's body; the list is emptied only when every entry was written (R187, R188; so R192 (c)). -/
def refreshBody (s : State) : Run :=
  (refreshEntries s.dirty s).andThen fun s' => .done { s' with dirty := [] }

/-- What CLEAR does after its command: cursor, dirty list, the mirror if so configured, the settle marker (R189, R190; so R192 (f)). -/
def clearTail (s : State) : State :=
  let s1 := { s with cursor := ⟨0, 0⟩, dirty := [] }
  let s2 := if s.cfg.clearResetsMirror then s1.blankGrid else s1
  s2.delay .clearSettle

/-- `clear_body()` (R189; its 6 bus writes, R192 (h)); INIT uses it too (42_initialization.md R164). -/
def clearBody (s : State) : Run :=
  (send (encClear s.cfg) .cmd s).andThen fun s' => .done (clearTail s')

/-- HOME's body (R191; its 6 bus writes, R192 (h)). -/
def homeBody (s : State) : Run :=
  (send (encHome s.cfg) .cmd s).andThen fun s' => .done ({ s' with cursor := ⟨0, 0⟩ }.delay .homeSettle)

/-- SET_ROW (R182). -/
def execSetRow (w : Bool) (a : Byte) (text : List Byte) (s : State) : Outcome :=
  .next (runRequest true (setRowBody w a text) s)

/-- REFRESH (R187). -/
def execRefresh (s : State) : Outcome := .next (runRequest true refreshBody s)

/-- CLEAR (R189). -/
def execClear (s : State) : Outcome := .next (runRequest true clearBody s)

/-- HOME (R191). -/
def execHome (s : State) : Outcome := .next (runRequest true homeBody s)

end Sys2Proof.Machine
end

