-- ==== Sys2Proof/Machine/Init.lean ====
section
/-! DEFINITION. The initialization sequencer: INIT (42_initialization.md). -/

namespace Sys2Proof.Machine

/-- `init_reset(a)`: every field but `halted` at its construction value (R161). -/
def initReset (a : Byte) (s : State) : State :=
  { s with
    initState := .uninit
    devAddr := a
    bl := s.cfg.backlightReset
    linkUnknown := false
    grid := []
    dirty := []
    cursor := ⟨0, 0⟩ }

/-- `init_wait()`: the power-on wait, then FORCING (R162). -/
def initWait (s : State) : State := { s.delay .powerOnWait with initState := .forcing }

/-- `init_force()`: the two forcing nibbles 0000 and 0010, each followed by a delay (R163). -/
def initForce (s : State) : Run :=
  ((write4bits 0x00 s).andThen fun s1 =>
    write4bits 0x20 (s1.delay .initNibbleDelay)).andThen fun s2 =>
    .done (s2.delay .initNibbleDelay)

/-- `init_display_on()` (R165). -/
def initDisplayOn (s : State) : Run := send (encDispctl s.cfg initDisplayParam) .cmd s

/-- INIT's body (R160 to R166). -/
def initBody (a : Byte) (s : State) : Run :=
  (((initForce (initWait (initReset a s))).andThen
    clearBody).andThen
    initDisplayOn).andThen fun s' =>
    .done { s' with initState := .ready }

/-- INIT (R160): accepted in every `init_state`. -/
def execInit (a : Byte) (s : State) : Outcome := .next (runRequest false (initBody a) s)

end Sys2Proof.Machine
end

