-- ==== Sys2Proof/Machine/Lcd.lean ====
section
/-! DEFINITION. The LCD instruction words (30_encoding.md R87, R88; 40_command_encoder.md R123 to R132): the bit-banger serialises the
word. At this input the state's pre-checks are those of every request but INIT (log 7). -/

namespace Sys2Proof.Machine

/-- LCD_CLEAR (R123). -/
def execLcdClear (s : State) : Outcome := .next (runRequest true (sendWord (packLcd false 0x01)) s)

/-- LCD_HOME (R124). -/
def execLcdHome (u : Bool) (s : State) : Outcome :=
  .next (runRequest true (sendWord (packLcd false (lcdHomeByte u))) s)

/-- LCD_ENTRY_MODE (R125). -/
def execLcdEntryMode (i sh : Bool) (s : State) : Outcome :=
  .next (runRequest true (sendWord (packLcd false (lcdEntryModeByte i sh))) s)

/-- LCD_DISPLAY_CONTROL (R126). -/
def execLcdDisplayControl (d c b : Bool) (s : State) : Outcome :=
  .next (runRequest true (sendWord (packLcd false (lcdDisplayControlByte d c b))) s)

/-- LCD_SHIFT (R127). -/
def execLcdShift (t r : Bool) (u : BitVec 2) (s : State) : Outcome :=
  .next (runRequest true (sendWord (packLcd false (lcdShiftByte t r u))) s)

/-- LCD_FUNCTION_SET (R128). -/
def execLcdFunctionSet (l n f : Bool) (u : BitVec 2) (s : State) : Outcome :=
  .next (runRequest true (sendWord (packLcd false (lcdFunctionSetByte l n f u))) s)

/-- LCD_SET_CGRAM_ADDR (R129). -/
def execLcdSetCgramAddr (a : BitVec 6) (s : State) : Outcome :=
  .next (runRequest true (sendWord (packLcd false (lcdSetCgramAddrByte a))) s)

/-- LCD_SET_DDRAM_ADDR (R130). -/
def execLcdSetDdramAddr (a : BitVec 7) (s : State) : Outcome :=
  .next (runRequest true (sendWord (packLcd false (lcdSetDdramAddrByte a))) s)

/-- LCD_WRITE_DATA (R131). -/
def execLcdWriteData (d : Byte) (s : State) : Outcome :=
  .next (runRequest true (sendWord (packLcd true d)) s)

/-- LCD_NULL (R132). -/
def execLcdNull (s : State) : Outcome := .next (runRequest true (sendWord (packLcd false 0x00)) s)

end Sys2Proof.Machine
end

