-- ==== Sys2Proof/Machine/Passthrough.lean ====
section
/-! DEFINITION. The backlight and the passthrough requests (44_passthrough_ops.md), and the reserved op codes (30_encoding.md R94). -/

namespace Sys2Proof.Machine

/-- SET_BACKLIGHT (R210): the bit is written before the null command carries it; grid and dirty list are not touched (43_display_memory_ops.md
R192 (g)). -/
def execSetBacklight (e : Bool) (s : State) : Outcome :=
  .next (runRequest true (fun s => send encNull .cmd { s with bl := e }) s)

/-- SET_ENTRY_MODE (R211). -/
def execSetEntryMode (p : Byte) (s : State) : Outcome :=
  .next (runRequest true (fun s => send (encEntry s.cfg p) .cmd s) s)

/-- SET_DISPLAY_CONTROL (R212). -/
def execSetDisplayControl (p : Byte) (s : State) : Outcome :=
  .next (runRequest true (fun s => send (encDispctl s.cfg p) .cmd s) s)

/-- SET_SHIFT (R213). -/
def execSetShift (p : Byte) (s : State) : Outcome :=
  .next (runRequest true (fun s => send (encShift s.cfg p) .cmd s) s)

/-- SET_FUNCTION (R214). -/
def execSetFunction (p : Byte) (s : State) : Outcome :=
  .next (runRequest true (fun s => send (encFunction s.cfg p) .cmd s) s)

/-- SET_CGRAM_ADDR (R215). -/
def execSetCgramAddr (p : Byte) (s : State) : Outcome :=
  .next (runRequest true (fun s => send (encCgram s.cfg p) .cmd s) s)

/-- WRITE_DATA (R216). -/
def execWriteData (d : Byte) (s : State) : Outcome :=
  .next (runRequest true (send d .data) s)

/-- RESERVED (30_encoding.md R94): refused with RESERVED_OP whatever its other bits. -/
def execReserved (s : State) : Outcome := .next (refuseEncoding .reservedOp s)

end Sys2Proof.Machine
end

