-- ==== Sys2Proof/Machine/Dispatch.lean ====
section
/-! DEFINITION. The meaning of every instruction: one arm per constructor of Instr. -/

namespace Sys2Proof.Machine

def exec (i : Instr) (s : State) : Host.Outcome State Fault Refusal :=
  match i with
  -- host requests (30_encoding.md R83)
  | .init a => Sys2Proof.Machine.execInit a s
  | .setRow w a text => Sys2Proof.Machine.execSetRow w a text s
  | .refresh => Sys2Proof.Machine.execRefresh s
  | .clear => Sys2Proof.Machine.execClear s
  | .home => Sys2Proof.Machine.execHome s
  | .setBacklight e => Sys2Proof.Machine.execSetBacklight e s
  | .setEntryMode p => Sys2Proof.Machine.execSetEntryMode p s
  | .setDisplayControl p => Sys2Proof.Machine.execSetDisplayControl p s
  | .setShift p => Sys2Proof.Machine.execSetShift p s
  | .setFunction p => Sys2Proof.Machine.execSetFunction p s
  | .setCgramAddr p => Sys2Proof.Machine.execSetCgramAddr p s
  | .writeData d => Sys2Proof.Machine.execWriteData d s
  | .reserved _ _ _ _ _ => Sys2Proof.Machine.execReserved s
  -- LCD instruction words (30_encoding.md R88)
  | .lcdClear => Sys2Proof.Machine.execLcdClear s
  | .lcdHome u => Sys2Proof.Machine.execLcdHome u s
  | .lcdEntryMode d sh => Sys2Proof.Machine.execLcdEntryMode d sh s
  | .lcdDisplayControl d c b => Sys2Proof.Machine.execLcdDisplayControl d c b s
  | .lcdShift t r u => Sys2Proof.Machine.execLcdShift t r u s
  | .lcdFunctionSet l n f u => Sys2Proof.Machine.execLcdFunctionSet l n f u s
  | .lcdSetCgramAddr a => Sys2Proof.Machine.execLcdSetCgramAddr a s
  | .lcdSetDdramAddr a => Sys2Proof.Machine.execLcdSetDdramAddr a s
  | .lcdWriteData d => Sys2Proof.Machine.execLcdWriteData d s
  | .lcdNull => Sys2Proof.Machine.execLcdNull s

end Sys2Proof.Machine
end

