-- ==== Sys2Proof/Machine/Fetch.lean ====
section
/-! DEFINITION. Taking the next input: what the block finds before it (30_encoding.md R80, 20_memory.md R61). -/

namespace Sys2Proof.Machine

/-- What the block does next, and the state it does it in: the input taken away. -/
inductive Fetched where
  /-- No input: the block idles (60_exceptions.md R248). -/
  | idle
  /-- The RESET input. -/
  | reset (s : State)
  /-- A decoded instruction. -/
  | run (i : Instr) (s : State)
  /-- A code the decoder rejects. -/
  | rejected (e : DecodeError) (s : State)
deriving DecidableEq, Repr

/-- Take the first input, if there is one (R61: in issue order). -/
def fetch (s : State) : Fetched :=
  match s.inputs with
  | [] => .idle
  | .reset :: rest => .reset { s with inputs := rest }
  | .code c :: rest =>
    match decode c with
    | .instr i => .run i { s with inputs := rest }
    | .rejected e => .rejected e { s with inputs := rest }

/-- The refusal reason of a rejected code (30_encoding.md R94). -/
def rejectReason : DecodeError → Reason
  | .reservedField => .reservedField

/-- A code that is no instruction: refused, with nothing else done (R94, 60_exceptions.md R233). -/
def refuseRejected (e : DecodeError) (s : State) : Outcome := .next (refuseEncoding (rejectReason e) s)

/-- The RESET input taken (70_reset_and_hazards.md R260). -/
def takeReset (s : State) : Outcome := .next s.resetInput

/-- Nothing to do: all state kept (60_exceptions.md R248). -/
def idle (s : State) : Outcome := .next s

end Sys2Proof.Machine
end

