-- ==== Sys2Proof/Machine/Step.lean ====
section
/-! DEFINITION. One step: one input taken and run to its end (20_memory.md R61, R63). -/

namespace Sys2Proof.Machine

/-- One step of the block. -/
def step (s : State) : Host.Outcome State Fault Refusal :=
  match fetch s with
  | .idle => idle s
  | .reset t => takeReset t
  | .run i t => exec i t
  | .rejected e t => refuseRejected e t

/-- `s` with the instruction whose bits are `w`, of `nbits` bits, put before the block as its next input (log 6, log 8). -/
def State.withFetchWord (s : State) (nbits w : Nat) : State :=
  { s with inputs := .code (codeOfTableWord nbits w) :: s.inputs }

end Sys2Proof.Machine
end

