-- ==== Sys2Proof/Machine/HostProgram.lean ====
section
/-! DEFINITION. The written form of requests (30_encoding.md R97) and the pseudo-requests the host side expands (R98). -/

namespace Sys2Proof.Machine

/-- A parameter operand `p8`: a number, or an OR of flag names (R97). -/
inductive ParamExpr where
  | lit (p : Byte)
  | flags (fs : List ParamFlag)
deriving DecidableEq, Repr

/-- The value of a parameter operand. -/
def ParamExpr.value : ParamExpr → Byte
  | .lit p => p
  | .flags fs => paramByte fs

/-- SET_ROW's text operand: a string literal or bytes (R97). -/
inductive TextExpr where
  | str (t : String)
  | bytes (bs : List Byte)
deriving DecidableEq, Repr

/-- A string literal stands for the ASCII codes of its characters (R97); the spec gives no code for any other character (log 20). -/
def asciiCodes : List Char → Option (List Byte)
  | [] => some []
  | c :: cs => if c.toNat < 128 then (asciiCodes cs).map (fun bs => BitVec.ofNat 8 c.toNat :: bs) else none

/-- The payload of a text operand. -/
def TextExpr.payload : TextExpr → Option (List Byte)
  | .str t => asciiCodes t.toList
  | .bytes bs => some bs

/-- One line of a request program (R97, R98). -/
inductive RequestLine where
  | init (dev : Byte)
  | setRow (r : Byte) (t : TextExpr)
  | setRowW (r : Byte) (t : TextExpr)
  | refresh
  | clear
  | home
  | setBacklight (on : Bool)
  | setEntryMode (p : ParamExpr)
  | setDisplayControl (p : ParamExpr)
  | setShift (p : ParamExpr)
  | setFunction (p : ParamExpr)
  | setCgramAddr (p : ParamExpr)
  | writeData (d : ParamExpr)
  /-- PUT_ROW r, "text". -/
  | putRow (r : Byte) (t : TextExpr)
  /-- BLANK_ROW r. -/
  | blankRow (r : Byte)
  /-- TOGGLE_BACKLIGHT. -/
  | toggleBacklight
deriving DecidableEq, Repr

/-- The requests a line stands for; a toggle needs the current backlight bit, which the host must know (R98). -/
def RequestLine.expand (bl : Bool) : RequestLine → Option (List Instr)
  | .init dev => some [.init dev]
  | .setRow r t => t.payload.map fun p => [.setRow false r p]
  | .setRowW r t => t.payload.map fun p => [.setRow true r p]
  | .refresh => some [.refresh]
  | .clear => some [.clear]
  | .home => some [.home]
  | .setBacklight on => some [.setBacklight on]
  | .setEntryMode p => some [.setEntryMode p.value]
  | .setDisplayControl p => some [.setDisplayControl p.value]
  | .setShift p => some [.setShift p.value]
  | .setFunction p => some [.setFunction p.value]
  | .setCgramAddr p => some [.setCgramAddr p.value]
  | .writeData d => some [.writeData d.value]
  | .putRow r t => t.payload.map fun p => [.setRow false r p, .refresh]
  | .blankRow r => some [.setRow false r []]
  | .toggleBacklight => some [.setBacklight (!bl)]

/-- The codes of a line, as the host puts them on the request channel: REQ16 words with payloads (R81, R82, R97). -/
def RequestLine.codes (bl : Bool) (l : RequestLine) : Option (List Code) := (l.expand bl).map (List.map encode)

end Sys2Proof.Machine
end

