-- ==== Sys2Proof/Machine/Receiver.lean ====
section
/-! DEFINITION. The reference receiver (20_memory.md R70 to R77): what a downstream LCD controller does with the trace. Informative and
outside the block: no meaning of an instruction reads it (log 13). -/

namespace Sys2Proof.Machine

/-- The receiver's address pointer: into DDRAM (7 bits, R59, R75) or CGRAM (6 bits, R52), whichever was last selected. -/
inductive Pointer where
  | ddram (a : BitVec 7)
  | cgram (a : BitVec 6)
deriving DecidableEq, Repr, Inhabited

/-- The expander's lines and the state of the downstream controller (10_state.md R35). -/
structure Receiver where
  /-- The bus address it answers to; writes to another device are not seen (20_memory.md R53). -/
  addr : Byte
  /-- Interface mode: 4-bit, or the 8-bit mode it starts in (R72). -/
  fourBit : Bool
  /-- In 4-bit mode, the high nibble already latched with its rs; none at phase "high" (R73). -/
  highHalf : Option (Byte × Bool)
  /-- EN in the last byte on the bus (R70). -/
  lastEn : Bool
  /-- The backlight line in the last byte on the bus (R57). -/
  backlight : Bool
  /-- DDRAM by 7-bit address; an unlisted cell is blank, 0x20 (R76). -/
  ddram : Memory
  /-- CGRAM by 6-bit address. -/
  cgram : Memory
  pointer : Pointer
  /-- Entry direction: the pointer moves up after a data byte (R75, R88). -/
  increment : Bool
  /-- Entry shift-enable: a data byte also moves the picture (R88, 70_reset_and_hazards.md R269). -/
  shiftEnable : Bool
  /-- The display-on, cursor-on and blink-on bits of the last display control command (R88). -/
  display : Bool × Bool × Bool
  /-- The last function set chose the 2-line, 4-row layout, in which cell (r, c) is at its address of R58 (70_reset_and_hazards.md R272,
  log 22). -/
  fourRow : Bool
  /-- Nothing has moved the picture against the addresses (R269, log 22). -/
  inPlace : Bool
  /-- The byte that last moved the picture or set the line mode; it indexes the free mapping `Config.shownAddress`. -/
  movedAt : Nat
  /-- Microseconds still to wait after a clear or return home before the next command (R76, 70_reset_and_hazards.md R265, log 23). -/
  settle : Nat
  /-- A write to it has been NACKed (93_implementation_defined.md U5, log 13), or a command came before it had settled (R76, log 23): from
  then on its state is any value. -/
  lost : Bool
  /-- Bytes put on the bus so far; it indexes the free values. -/
  seen : Nat
deriving DecidableEq, Repr, Inhabited

/-- What clear display leaves in a DDRAM cell (R76). -/
def receiverBlank : Byte := 0x20

end Sys2Proof.Machine

/-- The controller's state at the `n`-th byte once a write has been NACKed (60_exceptions.md R235, 70_reset_and_hazards.md R267,
93_implementation_defined.md U5) or a command has corrupted it (20_memory.md R76): any value of any part of it. Free value, no body
(log 13, log 23). -/
opaque Sys2Proof.Config.controllerAfterFailure : Nat → Sys2Proof.Machine.Receiver

namespace Sys2Proof.Machine

/-- At power-on the receiver is in 8-bit mode with nothing latched, no command to settle and EN low (R72); the rest is unknown. -/
def Receiver.atPowerOn (r : Receiver) : Prop :=
  r.fourBit = false ∧ r.highHalf = none ∧ r.lastEn = false ∧ r.settle = 0 ∧ r.lost = false

/-- In 4-bit mode, at phase "high", EN low, settled and not lost: where a send may start (R73, R76). -/
def Receiver.atByteStart (r : Receiver) : Prop :=
  r.fourBit = true ∧ r.highHalf = none ∧ r.lastEn = false ∧ r.settle = 0 ∧ r.lost = false

/-- The picture is in place in the 4-row layout: each cell of the screen shows its own address (R58, R59, R66 (c)). -/
def Receiver.inLayout (r : Receiver) : Bool := r.fourRow && r.inPlace

/-- The controller's state becomes any value; the expander's lines stay, since they follow the bytes that reach them (R57, U5). -/
def Receiver.lose (r : Receiver) : Receiver :=
  let q := Config.controllerAfterFailure r.seen
  { q with
    addr := r.addr, lastEn := r.lastEn, backlight := r.backlight, lost := true, seen := r.seen }

/-- A delay marker of the trace lets at least its named time pass (00_scope.md R13). -/
def Receiver.elapse (c : Config) (k : DelayName) (r : Receiver) : Receiver := { r with settle := r.settle - c.delayTime k }

/-- The picture has moved against the addresses (R66 (c), R269). -/
def Receiver.movePicture (r : Receiver) : Receiver := { r with inPlace := false, movedAt := r.seen }

/-- One past an address, in the entry direction; off either end of the memory the spec gives no address (R75, log 13). -/
def Receiver.advance (r : Receiver) : Pointer :=
  match r.pointer with
  | .ddram a =>
    if r.increment then (if a = 0x7F then .ddram (Config.ddramPastEnd r.seen) else .ddram (a + 1))
    else (if a = 0 then .ddram (Config.ddramPastEnd r.seen) else .ddram (a - 1))
  | .cgram a =>
    if r.increment then (if a = 0x3F then .cgram (Config.cgramPastEnd r.seen) else .cgram (a + 1))
    else (if a = 0 then .cgram (Config.cgramPastEnd r.seen) else .cgram (a - 1))

/-- The pointer after a cursor or display shift, which R74 names without an effect on it: any pointer (log 13). -/
def Receiver.pointerAfterShift (r : Receiver) : Pointer :=
  if Config.shiftEndsInDdram r.seen then .ddram (Config.ddramAfterShift r.seen)
  else .cgram (Config.cgramAfterShift r.seen)

/-- A data byte goes to the pointer, which then moves (R75); with shift-enable on, so does the picture (R269). -/
def Receiver.storeData (r : Receiver) (d : Byte) : Receiver :=
  let t := match r.pointer with
    | .ddram a => { r with ddram := Memory.write receiverBlank r.ddram a.toNat d, pointer := r.advance }
    | .cgram a => { r with cgram := Memory.write receiverBlank r.cgram a.toNat d, pointer := r.advance }
  if r.shiftEnable then t.movePicture else t

/-- One whole LCD instruction word (R72, R74 to R76; 30_encoding.md R88). A function set chooses the interface mode by its bit-mode bit
(R72, 70_reset_and_hazards.md R269; log 14) and the line mode (R272); a display shift moves the picture (R269; log 22); clear and return
home must settle before the next command (R76, R265; log 23). -/
def Receiver.execute (r : Receiver) : Instr → Receiver
  | .lcdWriteData d => r.storeData d
  | .lcdSetDdramAddr a => { r with pointer := .ddram a }
  | .lcdSetCgramAddr a => { r with pointer := .cgram a }
  | .lcdFunctionSet l n f _ => { r with fourBit := !l, highHalf := none, fourRow := !l && n && !f, movedAt := r.seen }
  | .lcdShift t _ _ =>
    let q := { r with pointer := r.pointerAfterShift }
    if t then q.movePicture else q
  | .lcdDisplayControl d c b => { r with display := (d, c, b) }
  | .lcdEntryMode i h => { r with increment := i, shiftEnable := h }
  | .lcdHome _ => { r with pointer := .ddram (Config.pointerAfterHome r.seen), settle := Config.clearSettleMin }
  | .lcdClear => { r with ddram := [], pointer := .ddram 0, settle := Config.clearSettleMin }
  | .lcdNull => r
  -- host requests are not LCD words and never reach the receiver
  | .init _ => r
  | .setRow _ _ _ => r
  | .refresh => r
  | .clear => r
  | .home => r
  | .setBacklight _ => r
  | .setEntryMode _ => r
  | .setDisplayControl _ => r
  | .setShift _ => r
  | .setFunction _ => r
  | .setCgramAddr _ => r
  | .writeData _ => r
  | .reserved _ _ _ _ _ => r

/-- A latched nibble (in bits 7..4) with its rs: a whole byte in 8-bit mode, one half of a pair in 4-bit mode (R72, R73). Before a clear or
return home has settled it corrupts the controller (R76, R265; log 23). -/
def Receiver.latch (r : Receiver) (nib : Byte) (rs : Bool) : Receiver :=
  if r.settle ≠ 0 then r.lose
  else if r.fourBit then
    match r.highHalf with
    | none => { r with highHalf := some (nib, rs) }
    | some (h, rs0) =>
      let rsPair := if rs0 = rs then rs else Config.mixedPairRs r.seen
      { r with highHalf := none }.execute (decodeLcd (packLcd rsPair (h ||| nib >>> 4)))
  else r.execute (decodeLcd (packLcd rs nib))

/-- One byte on the expander's lines: the lines follow it, and a falling EN latches (R57, R70). -/
def Receiver.takeByte (c : Config) (r : Receiver) (b : Byte) : Receiver :=
  let en : Bool := b &&& c.enMask != 0
  let r1 := { r with lastEn := en, backlight := b &&& c.blMask != 0, seen := r.seen + 1 }
  if r.lastEn && !en then r1.latch (b &&& 0xF0) (b &&& c.rsMask != 0) else r1

/-- One event of the trace: a delay marker only lets time pass (it is skipped where bus bytes are compared, R70) and a write to another
device is not seen. A NACKed byte may or may not have
reached the expander (60_exceptions.md R235, U6); whichever it did, the controller is any value from then on, at every later byte anew
(70_reset_and_hazards.md R267, 93_implementation_defined.md U5), and no later event brings it back (U8: a re-run INIT is not claimed to).
Log 13. -/
def Receiver.observe (c : Config) (r : Receiver) : Event → Receiver
  | .delay k => r.elapse c k
  | .write dev b answer =>
    if dev = r.addr then
      match answer with
      | .ack => if r.lost then (r.takeByte c b).lose else r.takeByte c b
      | .nack => (if Config.nackedByteArrives r.seen then r.takeByte c b else { r with seen := r.seen + 1 }).lose
    else r

/-- A whole trace. -/
def Receiver.run (c : Config) (r : Receiver) (trace : List Event) : Receiver := trace.foldl (Receiver.observe c) r

/-- Is the event of byte `b` a latch event after a byte whose EN was `lastEn` (R70)? -/
abbrev isLatch (c : Config) (lastEn : Bool) (b : Byte) : Bool := lastEn && b &&& c.enMask == 0

/-- The latch events of a list of bus bytes, each with its nibble and rs (R70). -/
def latches (c : Config) : Bool → List Byte → List (Byte × Bool)
  | _, [] => []
  | lastEn, b :: bs =>
    let rest := latches c (b &&& c.enMask != 0) bs
    if isLatch c lastEn b then (b &&& 0xF0, b &&& c.rsMask != 0) :: rest else rest

/-- The DDRAM address of a cell: its controller address without the select bit (R59). -/
def ddramCell (x : Coord) : Nat := controllerAddr x % 128

/-- What the receiver's DDRAM holds at a cell's own address (R77). -/
def Receiver.holds (r : Receiver) (x : Coord) : Byte := Memory.read receiverBlank r.ddram (ddramCell x)

/-- The DDRAM address a cell of the screen shows: its own in the layout, else a free one (R66 (c); log 22). -/
def Receiver.shownAddress (r : Receiver) (x : Coord) : Nat :=
  if r.inLayout then ddramCell x else (Config.shownAddress r.movedAt x.cell).toNat

/-- What the screen shows at a cell while the display is on: the mirror's belief (10_state.md R33) is about this. DESIGN CHOICE (log 22): it
does not read the display-on bit, since a blanked screen leaves the mirror correspondence intact (44_passthrough_ops.md R212). -/
def Receiver.shows (r : Receiver) (x : Coord) : Byte := Memory.read receiverBlank r.ddram (r.shownAddress x)

/-- What there is to see at a cell: nothing while the display is off (R212). -/
def Receiver.visible (r : Receiver) (x : Coord) : Option Byte := if r.display.1 then some (r.shows x) else none

end Sys2Proof.Machine
end

