-- ==== Sys2Proof/Safety.lean ====
section
/-! DEFINITION. The terms the claims are stated in: the invariant, the transport's answers ahead, the closed forms of traces, the
pre-check order as the spec writes it, timed traces, and agreement of the mirror with the receiver. -/

namespace Sys2Proof.Machine

/-! ## The invariant -/

/-- The invariants of 10_state.md R32 and R26, the canonical form of the grid, and a configuration the spec allows. -/
abbrev State.Inv (s : State) : Prop :=
  s.cfg.wf = true ∧ Memory.wf s.cfg.space s.grid = true ∧ (∀ c ∈ s.grid, c.1 < Config.cells) ∧
  (∀ x ∈ s.dirty, x.valid = true) ∧ s.dirty.Nodup ∧ s.cursor = ⟨0, 0⟩

/-- A safe state: the invariant holds and neither sticky error bit is set (10_state.md R28, R29). -/
abbrev State.Safe (s : State) : Prop := s.Inv ∧ s.halted = false ∧ s.linkUnknown = false

/-- The block accepts every request (42_initialization.md R166; 60_exceptions.md R232). -/
abbrev State.accepts (s : State) : Prop := s.halted = false ∧ s.initState = .ready

/-! ## The transport's answers ahead -/

/-- The next `n` bus writes are ACKed. -/
def State.acks (s : State) (n : Nat) : Prop := ∀ k, k < n → s.answerAt k = .ack

/-- The next `k` bus writes are ACKed and the one after them is NACKed. -/
def State.nacksAt (s : State) (k : Nat) : Prop := s.acks k ∧ s.answerAt k = .nack

/-! ## Closed forms -/

/-- The three bytes of one nibble (41_bit_banger.md R142). -/
def nibbleBytes (c : Config) (bl : Bool) (x : Byte) : List Byte :=
  let v := x ||| blBits c bl
  [v, v ||| c.enMask, v]

/-- The six bytes of `send(b, mode)` (R149). -/
def sendBytes (c : Config) (bl : Bool) (b : Byte) (m : Mode) : List Byte :=
  nibbleBytes c bl (hiNibble b ||| modeBit c m) ++ nibbleBytes c bl (loNibble b ||| modeBit c m)

/-- The bytes of one REFRESH entry: set-DDRAM, then the stored code (43_display_memory_ops.md R187). -/
def entryBytes (s : State) (x : Coord) : List Byte :=
  sendBytes s.cfg s.bl (encDdram s.cfg (ddramOperand x)) .cmd ++ sendBytes s.cfg s.bl (s.cellAt x) .data

/-- The bytes of a whole REFRESH (R187). -/
def refreshBytes (s : State) : List Byte := s.dirty.flatMap (entryBytes s)

/-- ACKed bus writes as trace events. -/
def ackedWrites (dev : Byte) (bs : List Byte) : List Event := bs.map (fun b => .write dev b .ack)

/-- The trace of a complete INIT (42_initialization.md R167), for either backlight value. -/
def initTrace (c : Config) (dev : Byte) (bl : Bool) : List Event :=
  [.delay .powerOnWait] ++ ackedWrites dev (nibbleBytes c bl 0x00) ++
  [.delay .initNibbleDelay] ++ ackedWrites dev (nibbleBytes c bl 0x20) ++
  [.delay .initNibbleDelay] ++ ackedWrites dev (sendBytes c bl c.selClear .cmd) ++
  [.delay .clearSettle] ++ ackedWrites dev (sendBytes c bl (c.selDispctl ||| 0x04) .cmd)

/-- The state after the bytes `bs` have been written and ACKed. -/
def State.afterBytes (s : State) (bs : List Byte) : State :=
  { s with
    trace := s.trace ++ ackedWrites s.devAddr bs
    answers := s.answers.drop bs.length
    draws := s.draws + bs.length }

/-- The state after the first `k` bytes of `bs` have been written and ACKed and the next one NACKed (R147). -/
def State.afterNack (s : State) (bs : List Byte) (k : Nat) : State :=
  { s with
    trace := s.trace ++ ackedWrites s.devAddr (bs.take k) ++ [.write s.devAddr (bs.getD k 0) .nack]
    answers := s.answers.drop (k + 1)
    draws := s.draws + (k + 1) }

/-- The state in which TransportError has ended a request: the link is unknown and the status says so (60_exceptions.md R235). -/
def State.transportFailed (s : State) : State :=
  { s with linkUnknown := true, replies := s.replies ++ [.transportError] }

/-- The state after a request that sends one byte and completes: six writes and status OK. -/
def State.afterSend (s : State) (b : Byte) (m : Mode) : State :=
  (s.afterBytes (sendBytes s.cfg s.bl b m)).reply .ok

/-- The state after a request that sends one byte whose `k`-th write (from 0) is NACKed. -/
def State.afterSendFailed (s : State) (b : Byte) (m : Mode) (k : Nat) : State :=
  (s.afterNack (sendBytes s.cfg s.bl b m) k).transportFailed

/-- The bus writes of a list of events. -/
def writesOf (es : List Event) : List Event :=
  es.filter fun e => match e with
    | .write _ _ _ => true
    | .delay _ => false

/-- A NACKed bus write. -/
def Event.isNack : Event → Bool
  | .write _ _ .nack => true
  | .write _ _ .ack => false
  | .delay _ => false

/-- What 30_encoding.md R85, R86 and 41_bit_banger.md R144 say of one bus write made while the device is `dev` and the backlight bit
`bl`: its address, RW clear, BL as the bit. A delay marker satisfies it. -/
def Event.wellDriven (c : Config) (dev : Byte) (bl : Bool) : Event → Prop
  | .write d b _ => d = dev ∧ b &&& c.rwMask = 0 ∧ b &&& c.blMask = blBits c bl
  | .delay _ => True

/-! ## Requests as the spec writes them -/

/-- The pre-checks in the words of 60_exceptions.md R232, on the request word's fields as numbers (30_encoding.md R81). -/
def precheck (s : State) (w : Req16) (p : List Byte) : Option Reason :=
  let op := w.toNat / 4096
  let wrap := w.toNat / 2048 % 2
  let z := w.toNat / 256 % 8
  let a := w.toNat % 256
  if s.halted = true then some .halted
  else if 0xC ≤ op then some .reservedOp
  else if z ≠ 0 ∨ (wrap = 1 ∧ op ≠ 1) ∨ (p ≠ [] ∧ op ≠ 1) ∨ ((op = 2 ∨ op = 3 ∨ op = 4) ∧ a ≠ 0) ∨ (op = 5 ∧ a / 2 ≠ 0) then
    some .reservedField
  else if op ≠ 0 ∧ s.initState ≠ .ready then some .notReady
  else none

/-- The state with its first input taken away. -/
def State.popInput (s : State) : State := { s with inputs := s.inputs.tail }

/-- The requests and words that send one byte and write no state of the block (44_passthrough_ops.md R211 to R216; the LCD words), and
RESERVED, which does nothing. -/
def isPassthrough : Instr → Bool
  | .setEntryMode _ => true
  | .setDisplayControl _ => true
  | .setShift _ => true
  | .setFunction _ => true
  | .setCgramAddr _ => true
  | .writeData _ => true
  | .reserved _ _ _ _ _ => true
  | .lcdClear => true
  | .lcdHome _ => true
  | .lcdEntryMode _ _ => true
  | .lcdDisplayControl _ _ _ => true
  | .lcdShift _ _ _ => true
  | .lcdFunctionSet _ _ _ _ => true
  | .lcdSetCgramAddr _ => true
  | .lcdSetDdramAddr _ => true
  | .lcdWriteData _ => true
  | .lcdNull => true
  | .init _ => false
  | .setRow _ _ _ => false
  | .refresh => false
  | .clear => false
  | .home => false
  | .setBacklight _ => false

/-- The cells of row `r` that SET_ROW marks: those whose code differs from the text's and that are not dirty yet, in ascending column
order (43_display_memory_ops.md R186). -/
def rowChanges (s : State) (r : Nat) (codes : List Byte) : List Coord :=
  ((List.range Config.cols).map (fun c => (⟨r, c⟩ : Coord))).filter
    fun x => decide (s.cellAt x ≠ codes.getD x.col 0) && decide (x ∉ s.dirty)

/-- How many bus writes a completed request makes (70_reset_and_hazards.md R274, 43_display_memory_ops.md R192 (h); a completed LCD word is one byte, R145). -/
def writeCount (s : State) : Instr → Nat
  | .init _ => 18
  | .setRow _ _ _ => 0
  | .refresh => 12 * s.dirty.length
  | .reserved _ _ _ _ _ => 0
  | .clear => 6
  | .home => 6
  | .setBacklight _ => 6
  | .setEntryMode _ => 6
  | .setDisplayControl _ => 6
  | .setShift _ => 6
  | .setFunction _ => 6
  | .setCgramAddr _ => 6
  | .writeData _ => 6
  | .lcdClear => 6
  | .lcdHome _ => 6
  | .lcdEntryMode _ _ => 6
  | .lcdDisplayControl _ _ _ => 6
  | .lcdShift _ _ _ => 6
  | .lcdFunctionSet _ _ _ _ => 6
  | .lcdSetCgramAddr _ => 6
  | .lcdSetDdramAddr _ => 6
  | .lcdWriteData _ => 6
  | .lcdNull => 6

/-- The delay markers a completed request emits, in order (R274). -/
def markers : Instr → List DelayName
  | .init _ => [.powerOnWait, .initNibbleDelay, .initNibbleDelay, .clearSettle]
  | .clear => [.clearSettle]
  | .home => [.homeSettle]
  | .setRow _ _ _ => []
  | .refresh => []
  | .reserved _ _ _ _ _ => []
  | .setBacklight _ => []
  | .setEntryMode _ => []
  | .setDisplayControl _ => []
  | .setShift _ => []
  | .setFunction _ => []
  | .setCgramAddr _ => []
  | .writeData _ => []
  | .lcdClear => []
  | .lcdHome _ => []
  | .lcdEntryMode _ _ => []
  | .lcdDisplayControl _ _ _ => []
  | .lcdShift _ _ _ => []
  | .lcdFunctionSet _ _ _ _ => []
  | .lcdSetCgramAddr _ => []
  | .lcdSetDdramAddr _ => []
  | .lcdWriteData _ => []
  | .lcdNull => []

/-- The delay markers of a list of events, in order. -/
def markersOf (es : List Event) : List DelayName :=
  es.filterMap fun e => match e with
    | .delay k => some k
    | .write _ _ _ => none

/-! ## Timed traces -/

/-- How long an event makes the next one wait, in microseconds: a delay marker its named time, a bus write nothing
(00_scope.md R13; 70_reset_and_hazards.md R275). -/
def Event.wait (c : Config) : Event → Nat
  | .delay k => c.delayTime k
  | .write _ _ _ => 0

/-- The delay provider's duty: each event of a timed trace follows the one before it by at least that one's wait (R13). -/
def respectsDelays (c : Config) : List (Nat × Event) → Prop
  | [] => True
  | [_] => True
  | (t, e) :: (u, f) :: rest => t + e.wait c ≤ u ∧ respectsDelays c ((u, f) :: rest)

/-! ## The mirror and the receiver -/

/-- Mirror correspondence in the controller's memory: when `link_unknown` is 0, every cell that is not dirty has its grid code at its own
DDRAM address (10_state.md R33, 20_memory.md R65). -/
def MirrorHeld (s : State) (r : Receiver) : Prop :=
  s.linkUnknown = false → ∀ x : Coord, x.valid = true → x ∉ s.dirty → r.holds x = s.cellAt x

/-- Mirror correspondence on the screen: when `link_unknown` is 0, every cell that is not dirty shows its grid code (10_state.md R33). It can
fail where `MirrorHeld` holds: after a display shift or a function set (20_memory.md R66 (c)). -/
def MirrorAgrees (s : State) (r : Receiver) : Prop :=
  s.linkUnknown = false → ∀ x : Coord, x.valid = true → x ∉ s.dirty → r.shows x = s.cellAt x

/-- The events a step has added to the trace. -/
def newEvents (s t : State) : List Event := t.trace.drop s.trace.length

end Sys2Proof.Machine
end

