-- ==== Sys2Proof/Certificates/Slice0/Obligations.lean ====
section
/-! DEFINITION. The statements for the provers. Each docstring names the rule of spec/ it formalises; a clause that rests on a choice of the
model's own names its log entry. -/

open Sys2Proof Sys2Proof.Machine

/-! ## Steps and decoding -/

/-- 20_memory.md R61, 30_encoding.md R93: a step takes the first input's code and runs the instruction it decodes to. -/
def Obligations.StepRunsTheDecodedInstruction : Prop :=
  ∀ (s : State) (c : Code) (i : Instr) (rest : List Input),
    s.inputs = .code c :: rest → decode c = .instr i → step s = exec i { s with inputs := rest }

/-- What a step does when it runs no instruction: it idles with all state kept (60_exceptions.md R248), or refuses a code the decoder
rejects with RESERVED_FIELD, HALTED coming first (30_encoding.md R94, 60_exceptions.md R232). The idle step is log 6. -/
def Obligations.StepWithoutAnInstruction : Prop :=
  (∀ s : State, s.inputs = [] → step s = .next s) ∧
  (∀ (s : State) (c : Code) (e : DecodeError) (rest : List Input),
    s.inputs = .code c :: rest → decode c = .rejected e →
    step s = .next ({ s with inputs := rest }.reply (.refused (if s.halted then .halted else .reservedField))))

/-- Placing a table word before the block makes the very next step run it (logs 6, 8, 18). -/
def Obligations.PlacedWordIsRunByTheNextStep : Prop :=
  ∀ (s : State) (nbits w : Nat) (i : Instr),
    decodeTableWord nbits w = some i → step (s.withFetchWord nbits w) = exec i s

/-- Decoding what an instruction encodes to gives it back, every operand at every value its field admits (30_encoding.md R81 to R88). -/
def Obligations.DecodeOfEncodeIsTheInstruction : Prop :=
  ∀ i : Instr, i.wf = true → decode (encode i) = .instr i

/-- A code that decodes has one meaning: it is the encoding of what it decodes to, which is well formed. -/
def Obligations.EncodeOfDecodeIsTheCode : Prop :=
  ∀ (c : Code) (i : Instr), decode c = .instr i → encode i = c ∧ i.wf = true

/-- 30_encoding.md R94's RESERVED_FIELD cases are exactly the requests the decoder rejects. -/
def Obligations.DecoderRejectsExactlyReservedFields : Prop :=
  ∀ (w : Req16) (p : List Byte),
    decode (.request w p) = .rejected .reservedField ↔
      w.toNat / 4096 < 0xC ∧
      (w.toNat / 256 % 8 ≠ 0 ∨
       (w.toNat / 2048 % 2 = 1 ∧ w.toNat / 4096 ≠ 1) ∨
       (p ≠ [] ∧ w.toNat / 4096 ≠ 1) ∨
       ((w.toNat / 4096 = 2 ∨ w.toNat / 4096 = 3 ∨ w.toNat / 4096 = 4) ∧ w.toNat % 256 ≠ 0) ∨
       (w.toNat / 4096 = 5 ∧ w.toNat % 256 / 2 ≠ 0))

/-- Every decoded code has the fixed bits of its own row of the opcode table and of no other row of its format. -/
def Obligations.DecodedCodeMatchesOneTableRow : Prop :=
  ∀ (c : Code) (i : Instr), decode c = .instr i →
    ∃ r ∈ c.rows, r.mnemonic = i.mnemonic ∧ r.matchesWord c.wordNat = true ∧
      ∀ q ∈ c.rows, q.matchesWord c.wordNat = true → q = r

/-- Words written out from 30_encoding.md R81, R83, R84 and R88 decode to the instructions they stand for. -/
def Obligations.SampleWordsDecode : Prop :=
  decode (.request 0b0000000000100111 []) = .instr (.init 0x27) ∧
  decode (.request 0b0001000000000011 [0x48, 0x69]) = .instr (.setRow false 3 [0x48, 0x69]) ∧
  decode (.request 0b0001100000000000 []) = .instr (.setRow true 0 []) ∧
  decode (.request 0b0010000000000000 []) = .instr .refresh ∧
  decode (.request 0b0101000000000001 []) = .instr (.setBacklight true) ∧
  decode (.request 0b1011000000011111 []) = .instr (.writeData 0x1F) ∧
  decode (.request 0b1101100100000010 [0x00]) = .instr (.reserved 0xD true 1 2 [0x00]) ∧
  decode (.request 0b0011000000000001 []) = .rejected .reservedField ∧
  decode (.lcd 0b000000111) = .instr (.lcdEntryMode true true) ∧
  decode (.lcd 0b000011101) = .instr (.lcdShift true true 1) ∧
  decode (.lcd 0b010010100) = .instr (.lcdSetDdramAddr 0x14) ∧
  decode (.lcd 0b101000001) = .instr (.lcdWriteData 0x41)

/-! ## Pre-checks and refusals -/

/-- 60_exceptions.md R233 with R232's order: a request the pre-checks refuse changes nothing but its status, and one they let pass is run as
the instruction it decodes to. -/
def Obligations.PrecheckedRequestIsRefusedOrRun : Prop :=
  ∀ (s : State) (w : Req16) (p : List Byte) (rest : List Input), s.inputs = .code (.request w p) :: rest →
    (∀ r, precheck s w p = some r → step s = .next { s with inputs := rest, replies := s.replies ++ [.refused r] }) ∧
    (precheck s w p = none → ∃ i, decode (.request w p) = .instr i ∧ step s = exec i { s with inputs := rest })

/-- 43_display_memory_ops.md R183: SET_ROW with the wrap flag, once past the pre-checks, is refused and does nothing else, whatever its row. -/
def Obligations.SetRowWithWrapIsRefused : Prop :=
  ∀ (s : State) (a : Byte) (text : List Byte), s.accepts →
    exec (.setRow true a text) s = .next { s with replies := s.replies ++ [.refused .wrapUnimplemented] }

/-- 30_encoding.md R94: a reserved op code is refused with RESERVED_OP whatever its other bits and in every `init_state`; when the block is
halted the reason is HALTED (60_exceptions.md R232). -/
def Obligations.ReservedOpIsRefused : Prop :=
  ∀ (s : State) (op : BitVec 4) (w : Bool) (z : BitVec 3) (a : Byte) (p : List Byte),
    (s.halted = false →
      exec (.reserved op w z a p) s = .next { s with replies := s.replies ++ [.refused .reservedOp] }) ∧
    (s.halted = true →
      exec (.reserved op w z a p) s = .next { s with replies := s.replies ++ [.refused .halted] })

/-- 10_state.md R29: while `halted` is set every request, INIT included, is refused with HALTED and nothing else happens, a step leaves the
halted state only by taking RESET, and enters it only with an InvalidCoordinate (60_exceptions.md R238). That an LCD word given to the bit-banger is
refused with HALTED too is the model's choice (log 7). -/
def Obligations.HaltedUntilReset : Prop :=
  (∀ (s : State) (c : Code) (rest : List Input), s.halted = true → s.inputs = .code c :: rest →
    step s = .next { s with inputs := rest, replies := s.replies ++ [.refused .halted] }) ∧
  (∀ s t : State, s.halted = true → step s = .next t → t.halted = false → s.inputs.head? = some .reset) ∧
  (∀ s t : State, s.halted = false → step s = .next t →
    (t.halted = true ↔ ∃ row col, t.replies = s.replies ++ [.invalidCoordinate row col]))

/-! ## INIT -/

/-- 42_initialization.md R160, R161, R166 and the trace of R167: INIT, accepted in every `init_state` unless halted, with every write ACKed. -/
def Obligations.InitCompletes : Prop :=
  ∀ (s : State) (a : Byte), s.cfg.wf = true → s.halted = false → s.acks 18 →
    exec (.init a) s = .next { s with
      initState := .ready
      bl := s.cfg.backlightReset
      cursor := ⟨0, 0⟩
      devAddr := a
      linkUnknown := false
      grid := []
      dirty := []
      replies := s.replies ++ [.ok]
      trace := s.trace ++ initTrace s.cfg a s.cfg.backlightReset
      answers := s.answers.drop 18
      draws := s.draws + 18 }

/-- 42_initialization.md R167: the two complete INIT traces of an instance with the default masks and select values, byte by byte. -/
def Obligations.InitTraceOfTheDefaultInstance : Prop :=
  ∀ dev : Byte,
    initTrace Config.default dev true =
      [.delay .powerOnWait] ++ ackedWrites dev [0x08, 0x0C, 0x08] ++ [.delay .initNibbleDelay] ++ ackedWrites dev [0x28, 0x2C, 0x28] ++
      [.delay .initNibbleDelay] ++ ackedWrites dev [0x08, 0x0C, 0x08, 0x18, 0x1C, 0x18] ++ [.delay .clearSettle] ++
      ackedWrites dev [0x08, 0x0C, 0x08, 0xC8, 0xCC, 0xC8] ∧
    initTrace Config.default dev false =
      [.delay .powerOnWait] ++ ackedWrites dev [0x00, 0x04, 0x00] ++ [.delay .initNibbleDelay] ++ ackedWrites dev [0x20, 0x24, 0x20] ++
      [.delay .initNibbleDelay] ++ ackedWrites dev [0x00, 0x04, 0x00, 0x10, 0x14, 0x10] ++ [.delay .clearSettle] ++
      ackedWrites dev [0x00, 0x04, 0x00, 0xC0, 0xC4, 0xC0]

/-- 42_initialization.md R168: a NACK at any of INIT's 18 writes ends it with TRANSPORT_ERROR in FORCING; the construction values of R161
stay, and the trace is INIT's up to that write. -/
def Obligations.InitFailureStaysForcing : Prop :=
  ∀ (s : State) (a : Byte) (k : Nat), s.cfg.wf = true → s.halted = false → k < 18 → s.nacksAt k →
    ∃ (n : Nat) (b : Byte), (initTrace s.cfg a s.cfg.backlightReset)[n]? = some (.write a b .ack) ∧
      (writesOf ((initTrace s.cfg a s.cfg.backlightReset).take n)).length = k ∧
      exec (.init a) s = .next { s with
        initState := .forcing
        bl := s.cfg.backlightReset
        cursor := ⟨0, 0⟩
        devAddr := a
        linkUnknown := true
        grid := []
        dirty := []
        replies := s.replies ++ [.transportError]
        trace := s.trace ++ (initTrace s.cfg a s.cfg.backlightReset).take n ++ [.write a b .nack]
        answers := s.answers.drop (k + 1)
        draws := s.draws + (k + 1) }

/-! ## SET_ROW -/

/-- 43_display_memory_ops.md R182 with the lanes of R186 and the insertion rule of R185: SET_ROW completes on every row 0..3, each of its 20
cells then holds its code, the cells that differed and were not dirty are appended in ascending column order, no other cell and no other field
changes. -/
def Obligations.SetRowWritesItsRow : Prop :=
  ∀ (s : State) (a : Byte) (text : List Byte),
    s.accepts → Memory.wf s.cfg.space s.grid = true → a.toNat ≤ 3 →
    ∃ t : State, exec (.setRow false a text) s = .next t ∧
      t = { s with
        grid := t.grid
        dirty := s.dirty ++ rowChanges s a.toNat (normalizeText s.cfg.space text)
        replies := s.replies ++ [.ok] } ∧
      (∀ c, c < 20 → t.cellAt ⟨a.toNat, c⟩ = (normalizeText s.cfg.space text).getD c 0) ∧
      (∀ k, (∀ c, c < 20 → k ≠ (⟨a.toNat, c⟩ : Coord).cell) →
        Memory.read t.cfg.space t.grid k = Memory.read s.cfg.space s.grid k)

/-- 43_display_memory_ops.md R184: a row above 3 raises InvalidCoordinate before any state change; the info recorded is the row (60_exceptions.md
R237 (a)), and only `halted` and the status record it (R238). -/
def Obligations.SetRowOutOfRangeHalts : Prop :=
  ∀ (s : State) (a : Byte) (text : List Byte), s.accepts → 3 < a.toNat →
    exec (.setRow false a text) s =
      .next { s with halted := true, replies := s.replies ++ [.invalidCoordinate a.toNat none] }

/-- 43_display_memory_ops.md R181: the text becomes exactly 20 codes, its own first ones and then SPACE. -/
def Obligations.NormalizedTextIsPaddedOrCut : Prop :=
  ∀ (space : Byte) (text : List Byte), (normalizeText space text).length = 20 ∧
    ∀ c, c < 20 → (normalizeText space text)[c]? = some (text.getD c space)

/-- 43_display_memory_ops.md R192 (a) and (b). Diff minimality: with no entry of the row dirty, a SET_ROW appends exactly the columns whose
normalized texts differ, in ascending order. Idempotence: the same SET_ROW again changes neither grid nor dirty list. -/
def Obligations.SetRowIsMinimalAndIdempotent : Prop :=
  (∀ (s t : State) (a : Byte) (old new : List Byte),
    s.accepts → Memory.wf s.cfg.space s.grid = true → a.toNat ≤ 3 →
    (∀ x ∈ s.dirty, x.row ≠ a.toNat) →
    (∀ c, c < 20 → s.cellAt ⟨a.toNat, c⟩ = (normalizeText s.cfg.space old).getD c 0) →
    exec (.setRow false a new) s = .next t →
    t.dirty = s.dirty ++
      ((List.range 20).filter fun c =>
        decide ((normalizeText s.cfg.space old).getD c 0 ≠ (normalizeText s.cfg.space new).getD c 0)).map fun c => ⟨a.toNat, c⟩) ∧
  (∀ (s t u : State) (a : Byte) (text : List Byte),
    Memory.wf s.cfg.space s.grid = true → exec (.setRow false a text) s = .next t → exec (.setRow false a text) t = .next u →
    u.grid = t.grid ∧ u.dirty = t.dirty)

/-! ## REFRESH, CLEAR, HOME -/

/-- 43_display_memory_ops.md R187 and R188: REFRESH writes every entry in list order, set-DDRAM then the stored code, and then empties the list;
a NACK at any of its 12 n writes ends it with TRANSPORT_ERROR and keeps the list whole and the grid. -/
def Obligations.RefreshWritesBackEveryEntry : Prop :=
  ∀ s : State, s.cfg.wf = true → (∀ x ∈ s.dirty, x.valid = true) → s.accepts →
    (s.acks (12 * s.dirty.length) →
      exec .refresh s = .next ({ s.afterBytes (refreshBytes s) with dirty := [] }.reply .ok)) ∧
    (∀ k, k < 12 * s.dirty.length → s.nacksAt k →
      exec .refresh s = .next (s.afterNack (refreshBytes s) k).transportFailed)

/-- 60_exceptions.md R237 (b), R238: a REFRESH that meets an entry outside the grid, after writing the entries before it, raises InvalidCoordinate:
`halted` is set and the list is kept. No run reaches such a state (10_state.md R32). That the status carries the coordinate is log 10. -/
def Obligations.RefreshHaltsAtAnInvalidEntry : Prop :=
  ∀ (s : State) (before after : List Coord) (x : Coord),
    s.cfg.wf = true → s.accepts → s.dirty = before ++ x :: after → (∀ y ∈ before, y.valid = true) → x.valid = false →
    s.acks (12 * before.length) →
    exec .refresh s = .next { s.afterBytes (before.flatMap (entryBytes s)) with
      halted := true
      replies := s.replies ++ [.invalidCoordinate x.row (some x.col)] }

/-- 43_display_memory_ops.md R189 and R190: CLEAR sends the clear command, then resets the cursor, drops the dirty list unwritten, blanks the grid only
where CLEAR_RESETS_MIRROR, and ends with the settle marker; a failed send leaves cursor, list and grid and emits no marker (60_exceptions.md R236). -/
def Obligations.ClearCompletesOrKeepsItsState : Prop :=
  ∀ s : State, s.cfg.wf = true → s.accepts →
    (s.acks 6 →
      exec .clear s = .next { s with
        cursor := ⟨0, 0⟩
        dirty := []
        grid := if s.cfg.clearResetsMirror then [] else s.grid
        replies := s.replies ++ [.ok]
        trace := s.trace ++ ackedWrites s.devAddr (sendBytes s.cfg s.bl s.cfg.selClear .cmd) ++ [.delay .clearSettle]
        answers := s.answers.drop 6
        draws := s.draws + 6 }) ∧
    (∀ k, k < 6 → s.nacksAt k → exec .clear s = .next (s.afterSendFailed s.cfg.selClear .cmd k))

/-- 43_display_memory_ops.md R191: HOME sends the home command, resets the cursor and ends with its settle marker; grid and dirty list are
unchanged; a failed send emits no marker. -/
def Obligations.HomeCompletesOrKeepsItsState : Prop :=
  ∀ s : State, s.cfg.wf = true → s.accepts →
    (s.acks 6 →
      exec .home s = .next { s with
        cursor := ⟨0, 0⟩
        replies := s.replies ++ [.ok]
        trace := s.trace ++ ackedWrites s.devAddr (sendBytes s.cfg s.bl s.cfg.selHome .cmd) ++ [.delay .homeSettle]
        answers := s.answers.drop 6
        draws := s.draws + 6 }) ∧
    (∀ k, k < 6 → s.nacksAt k → exec .home s = .next (s.afterSendFailed s.cfg.selHome .cmd k))

/-! ## Backlight and passthroughs -/

/-- 44_passthrough_ops.md R210: SET_BACKLIGHT writes the bit, then sends 0x00 with the new bit on all six writes; a failed send keeps the new bit. -/
def Obligations.SetBacklightWritesTheBitFirst : Prop :=
  ∀ (s : State) (e : Bool), s.cfg.wf = true → s.accepts →
    (s.acks 6 → exec (.setBacklight e) s = .next ({ s with bl := e }.afterSend 0x00 .cmd)) ∧
    (∀ k, k < 6 → s.nacksAt k → exec (.setBacklight e) s = .next ({ s with bl := e }.afterSendFailed 0x00 .cmd k))

/-- 44_passthrough_ops.md R211 to R215: each parameter passthrough sends its select value ORed with the parameter as given, as a command, and
writes no state; a NACK ends it. -/
def Obligations.ParameterPassthroughsSendTheirCommand : Prop :=
  ∀ (s : State) (p : Byte), s.cfg.wf = true → s.accepts →
    (s.acks 6 →
      exec (.setEntryMode p) s = .next (s.afterSend (s.cfg.selEntry ||| p) .cmd) ∧
      exec (.setDisplayControl p) s = .next (s.afterSend (s.cfg.selDispctl ||| p) .cmd) ∧
      exec (.setShift p) s = .next (s.afterSend (s.cfg.selShift ||| p) .cmd) ∧
      exec (.setFunction p) s = .next (s.afterSend (s.cfg.selFunction ||| p) .cmd) ∧
      exec (.setCgramAddr p) s = .next (s.afterSend (s.cfg.selCgram ||| p) .cmd)) ∧
    (∀ k, k < 6 → s.nacksAt k →
      exec (.setEntryMode p) s = .next (s.afterSendFailed (s.cfg.selEntry ||| p) .cmd k) ∧
      exec (.setDisplayControl p) s = .next (s.afterSendFailed (s.cfg.selDispctl ||| p) .cmd k) ∧
      exec (.setShift p) s = .next (s.afterSendFailed (s.cfg.selShift ||| p) .cmd k) ∧
      exec (.setFunction p) s = .next (s.afterSendFailed (s.cfg.selFunction ||| p) .cmd k) ∧
      exec (.setCgramAddr p) s = .next (s.afterSendFailed (s.cfg.selCgram ||| p) .cmd k))

/-- 44_passthrough_ops.md R216: WRITE_DATA sends its byte unchanged in DATA mode and writes no state; a NACK ends it. -/
def Obligations.WriteDataSendsItsByte : Prop :=
  ∀ (s : State) (d : Byte), s.cfg.wf = true → s.accepts →
    (s.acks 6 → exec (.writeData d) s = .next (s.afterSend d .data)) ∧
    (∀ k, k < 6 → s.nacksAt k → exec (.writeData d) s = .next (s.afterSendFailed d .data k))

/-- 44_passthrough_ops.md's examples on the default instance with the backlight on: the bytes on the bus, worked out by the spec. -/
def Obligations.SpecExampleBytes : Prop :=
  sendBytes Config.default true (encEntry Config.default ParamFlag.entryIncrement.value) .cmd = [0x08, 0x0C, 0x08, 0x68, 0x6C, 0x68] ∧
  sendBytes Config.default true (encDispctl Config.default (paramByte [.displayOn, .cursorOn, .blinkOn])) .cmd =
    [0x08, 0x0C, 0x08, 0xF8, 0xFC, 0xF8] ∧
  sendBytes Config.default true (encShift Config.default (paramByte [.shiftDisplay, .shiftRight])) .cmd =
    [0x18, 0x1C, 0x18, 0xC8, 0xCC, 0xC8] ∧
  sendBytes Config.default true (encFunction Config.default (paramByte [.mode4Bit, .lines2, .dots5x8])) .cmd =
    [0x28, 0x2C, 0x28, 0x88, 0x8C, 0x88] ∧
  sendBytes Config.default true (encCgram Config.default 0x00) .cmd = [0x48, 0x4C, 0x48, 0x08, 0x0C, 0x08] ∧
  sendBytes Config.default true 0x1F .data = [0x19, 0x1D, 0x19, 0xF9, 0xFD, 0xF9] ∧
  sendBytes Config.default false encNull .cmd = [0x00, 0x04, 0x00, 0x00, 0x04, 0x00]

/-! ## LCD words -/

/-- 30_encoding.md R87, R88: each LCD word of the table, with every value of its fields, is serialised as the six writes of its byte, a command for
rs = 0 and data for rs = 1. The bytes are those of the table's rows. That a word can be given to the bit-banger directly is log 7. -/
def Obligations.LcdWordsAreSerialised : Prop :=
  ∀ s : State, s.cfg.wf = true → s.accepts → s.acks 6 →
    exec .lcdClear s = .next (s.afterSend 0x01 .cmd) ∧
    (∀ u : Bool, exec (.lcdHome u) s = .next (s.afterSend (BitVec.ofNat 8 (2 + u.toNat)) .cmd)) ∧
    (∀ i h : Bool, exec (.lcdEntryMode i h) s = .next (s.afterSend (BitVec.ofNat 8 (4 + 2 * i.toNat + h.toNat)) .cmd)) ∧
    (∀ d c b : Bool,
      exec (.lcdDisplayControl d c b) s = .next (s.afterSend (BitVec.ofNat 8 (8 + 4 * d.toNat + 2 * c.toNat + b.toNat)) .cmd)) ∧
    (∀ (t r : Bool) (u : BitVec 2),
      exec (.lcdShift t r u) s = .next (s.afterSend (BitVec.ofNat 8 (16 + 8 * t.toNat + 4 * r.toNat + u.toNat)) .cmd)) ∧
    (∀ (l n f : Bool) (u : BitVec 2),
      exec (.lcdFunctionSet l n f u) s =
        .next (s.afterSend (BitVec.ofNat 8 (32 + 16 * l.toNat + 8 * n.toNat + 4 * f.toNat + u.toNat)) .cmd)) ∧
    (∀ a : BitVec 6, exec (.lcdSetCgramAddr a) s = .next (s.afterSend (BitVec.ofNat 8 (64 + a.toNat)) .cmd)) ∧
    (∀ a : BitVec 7, exec (.lcdSetDdramAddr a) s = .next (s.afterSend (BitVec.ofNat 8 (128 + a.toNat)) .cmd)) ∧
    (∀ d : Byte, exec (.lcdWriteData d) s = .next (s.afterSend d .data)) ∧
    exec .lcdNull s = .next (s.afterSend 0x00 .cmd)

/-- The model's choice (log 7): an LCD word given to the bit-banger while the block is not READY is refused with NOT_READY, so that no bus write
comes before INIT's forcing step (70_reset_and_hazards.md R264). -/
def Obligations.LcdWordsWaitForReady : Prop :=
  ∀ (s : State) (w : LcdWord), s.halted = false → s.initState ≠ .ready →
    exec (decodeLcd w) s = .next { s with replies := s.replies ++ [.refused .notReady] }

/-! ## Frames -/

/-- 44_passthrough_ops.md R211 to R216 ("State written: none"), RESERVED (30_encoding.md R94, 60_exceptions.md R233) and the LCD words (R87,
41_bit_banger.md R143; their own input is log 7): whatever the outcome, no block field but `link_unknown` changes, that one only from 0 to 1, and every
cell reads as before. -/
def Obligations.PassthroughFrame : Prop :=
  ∀ (i : Instr) (s t : State), isPassthrough i = true → s.cfg.wf = true → exec i s = .next t →
    t.cfg = s.cfg ∧ t.initState = s.initState ∧ t.bl = s.bl ∧ t.cursor = s.cursor ∧ t.devAddr = s.devAddr ∧ t.halted = s.halted ∧
    t.dirty = s.dirty ∧ t.inputs = s.inputs ∧ (s.linkUnknown = true → t.linkUnknown = true) ∧
    ∀ k, Memory.read t.cfg.space t.grid k = Memory.read s.cfg.space s.grid k

/-- SET_BACKLIGHT, REFRESH, CLEAR and HOME: whatever the outcome, what each leaves alone. The grid changes only in a CLEAR with CLEAR_RESETS_MIRROR, `bl`
only in SET_BACKLIGHT, the dirty list is kept or emptied, the cursor is kept or (0, 0). -/
def Obligations.DisplayAndBacklightFrame : Prop :=
  ∀ (s t : State), s.cfg.wf = true → (∀ x ∈ s.dirty, x.valid = true) →
    (∀ e, exec (.setBacklight e) s = .next t →
      t.cfg = s.cfg ∧ t.initState = s.initState ∧ (t.bl = s.bl ∨ t.bl = e) ∧ t.cursor = s.cursor ∧ t.devAddr = s.devAddr ∧
      t.halted = s.halted ∧ t.dirty = s.dirty ∧ t.inputs = s.inputs ∧ (s.linkUnknown = true → t.linkUnknown = true) ∧
      ∀ k, Memory.read t.cfg.space t.grid k = Memory.read s.cfg.space s.grid k) ∧
    (exec .refresh s = .next t →
      t.cfg = s.cfg ∧ t.initState = s.initState ∧ t.bl = s.bl ∧ t.cursor = s.cursor ∧ t.devAddr = s.devAddr ∧ t.halted = s.halted ∧
      (t.dirty = s.dirty ∨ t.dirty = []) ∧ t.inputs = s.inputs ∧ (s.linkUnknown = true → t.linkUnknown = true) ∧
      ∀ k, Memory.read t.cfg.space t.grid k = Memory.read s.cfg.space s.grid k) ∧
    (exec .clear s = .next t →
      t.cfg = s.cfg ∧ t.initState = s.initState ∧ t.bl = s.bl ∧ (t.cursor = s.cursor ∨ t.cursor = ⟨0, 0⟩) ∧ t.devAddr = s.devAddr ∧
      t.halted = s.halted ∧ (t.dirty = s.dirty ∨ t.dirty = []) ∧ t.inputs = s.inputs ∧ (s.linkUnknown = true → t.linkUnknown = true) ∧
      (s.cfg.clearResetsMirror = false → ∀ k, Memory.read t.cfg.space t.grid k = Memory.read s.cfg.space s.grid k)) ∧
    (exec .home s = .next t →
      t.cfg = s.cfg ∧ t.initState = s.initState ∧ t.bl = s.bl ∧ (t.cursor = s.cursor ∨ t.cursor = ⟨0, 0⟩) ∧ t.devAddr = s.devAddr ∧
      t.halted = s.halted ∧ t.dirty = s.dirty ∧ t.inputs = s.inputs ∧ (s.linkUnknown = true → t.linkUnknown = true) ∧
      ∀ k, Memory.read t.cfg.space t.grid k = Memory.read s.cfg.space s.grid k)

/-- SET_ROW, whatever the outcome and the state: it makes no bus write and emits no delay, draws no answer, and changes only its row of the grid, the
dirty list, `halted` and the statuses (43_display_memory_ops.md R182, 60_exceptions.md R238). A cell of another row reads as before; a row above 3
writes no cell. -/
def Obligations.SetRowFrame : Prop :=
  ∀ (w : Bool) (a : Byte) (text : List Byte) (s t : State), exec (.setRow w a text) s = .next t →
    t.cfg = s.cfg ∧ t.initState = s.initState ∧ t.bl = s.bl ∧ t.cursor = s.cursor ∧ t.devAddr = s.devAddr ∧
    t.linkUnknown = s.linkUnknown ∧ t.inputs = s.inputs ∧ t.trace = s.trace ∧ t.answers = s.answers ∧ t.draws = s.draws ∧
    (s.halted = true → t.halted = true) ∧
    (∀ k, (∀ c, c < 20 → k ≠ (⟨rowOperand a, c⟩ : Coord).cell) →
      Memory.read t.cfg.space t.grid k = Memory.read s.cfg.space s.grid k) ∧
    (3 < a.toNat → t.grid = s.grid ∧ t.dirty = s.dirty)

/-- INIT, whatever the outcome: `halted`, the configuration and the waiting inputs are unchanged; a refused INIT changes no field; any other has the construction
values of 42_initialization.md R161, so every cell reads SPACE. -/
def Obligations.InitFrame : Prop :=
  ∀ (a : Byte) (s t : State), s.cfg.wf = true → exec (.init a) s = .next t →
    t.cfg = s.cfg ∧ t.halted = s.halted ∧ t.inputs = s.inputs ∧
    (s.halted = true → t = { s with replies := s.replies ++ [.refused .halted] }) ∧
    (s.halted = false →
      t.devAddr = a ∧ t.bl = s.cfg.backlightReset ∧ t.cursor = ⟨0, 0⟩ ∧ t.dirty = [] ∧
      ∀ k, Memory.read t.cfg.space t.grid k = s.cfg.space)

/-! ## Reset and invariants -/

/-- The RESET column of 10_state.md R23 (70_reset_and_hazards.md R261), but for `dev_addr`, which it leaves unspecified (log 1); an instance with the default
parameters (00_scope.md R9), nothing yet on any interface (log 9). -/
def Obligations.ResetStateValues : Prop :=
  State.reset.initState = .uninit ∧ State.reset.bl = true ∧ State.reset.cursor = ⟨0, 0⟩ ∧ State.reset.linkUnknown = false ∧
  State.reset.halted = false ∧ State.reset.dirty = [] ∧ (∀ x : Coord, State.reset.cellAt x = 0x20) ∧
  State.reset.cfg = Config.default ∧ State.reset.trace = [] ∧ State.reset.replies = []

/-- 70_reset_and_hazards.md R260: the RESET input puts every field at its RESET value from any state, makes no bus write, emits no marker and returns no
status; the configuration is not changed (R261). -/
def Obligations.ResetInputRestoresTheResetState : Prop :=
  ∀ (s : State) (rest : List Input), s.inputs = .reset :: rest →
    ∃ t : State, step s = .next t ∧
      t.initState = .uninit ∧ t.bl = s.cfg.backlightReset ∧ t.cursor = ⟨0, 0⟩ ∧ t.linkUnknown = false ∧ t.halted = false ∧
      (∀ k, Memory.read t.cfg.space t.grid k = s.cfg.space) ∧ t.dirty = [] ∧
      t.cfg = s.cfg ∧ t.trace = s.trace ∧ t.replies = s.replies ∧ t.inputs = rest

/-- The invariant holds right after reset. -/
def Obligations.ResetStateMeetsTheInvariant : Prop := State.reset.Inv

/-- 10_state.md R32 (every dirty entry in range, none twice, the 80 cells and no other) and R26 (the cursor at the origin), with the grid's canonical
form: every step keeps them, from every state that has them. -/
def Obligations.StepKeepsTheInvariant : Prop :=
  ∀ s t : State, s.Inv → step s = .next t → t.Inv

/-- 10_state.md R32: in a state with the invariant no REFRESH reports InvalidCoordinate; only a SET_ROW does, with a row above 3. -/
def Obligations.OnlySetRowReportsAnInvalidCoordinate : Prop :=
  ∀ (s t : State) (i : Instr) (row : Nat) (col : Option Nat), s.Inv → exec i s = .next t →
    t.replies = s.replies ++ [.invalidCoordinate row col] →
    ∃ a text, i = .setRow false a text ∧ row = a.toNat ∧ 3 < row ∧ col = none

/-! ## Whole-machine rules -/

/-- 20_memory.md R63, 30_encoding.md R80, 10_state.md R36: a request takes one input, returns one status, only adds to the trace and leaves the
configuration (10_state.md R34). That no step stops the machine (60_exceptions.md R240, R241) is log 12 and, for the idle step, log 6; the input and
the status of an LCD word are the model's choice (log 7). -/
def Obligations.EveryRequestReturnsOneStatus : Prop :=
  (∀ s : State, ∃ t, step s = .next t) ∧
  (∀ (s t : State) (c : Code) (rest : List Input), s.inputs = .code c :: rest → step s = .next t →
    ∃ (st : Status) (evs : List Event), t.replies = s.replies ++ [st] ∧ t.trace = s.trace ++ evs ∧ t.inputs = rest ∧ t.cfg = s.cfg)

/-- 60_exceptions.md R235: a request ends with TRANSPORT_ERROR exactly when one of its bus writes was NACKed; that write is then the last event of the trace
and `link_unknown` is set (10_state.md R28). R230 gives the status to requests; that an LCD word returns it too is the model's choice (log 7). -/
def Obligations.TransportErrorRecord : Prop :=
  ∀ (i : Instr) (s t : State), s.cfg.wf = true → (∀ x ∈ s.dirty, x.valid = true) → exec i s = .next t →
    (t.replies = s.replies ++ [.transportError] ↔ ∃ e ∈ newEvents s t, e.isNack = true) ∧
    (t.replies = s.replies ++ [.transportError] →
      t.linkUnknown = true ∧ ∃ (pre : List Event) (dev b : Byte),
        newEvents s t = pre ++ [.write dev b .nack] ∧ ∀ e ∈ pre, e.isNack = false) ∧
    (s.linkUnknown = false → t.linkUnknown = true → t.replies = s.replies ++ [.transportError])

/-- 10_state.md R24: only INIT and RESET write `init_state`; a step that takes an INIT leaves READY with status OK, FORCING with TRANSPORT_ERROR, and
otherwise leaves it as it was. -/
def Obligations.OnlyInitAndResetWriteInitState : Prop :=
  ∀ s t : State, s.cfg.wf = true → step s = .next t →
    (t.initState ≠ s.initState → s.inputs.head? = some .reset ∨ ∃ a, s.inputs.head? = some (.code (encode (.init a)))) ∧
    (∀ a, s.inputs.head? = some (.code (encode (.init a))) →
      (t.replies = s.replies ++ [.ok] ∧ t.initState = .ready) ∨
      (t.replies = s.replies ++ [.transportError] ∧ t.initState = .forcing) ∨
      (t.replies = s.replies ++ [.refused .halted] ∧ t.initState = s.initState))

/-- 70_reset_and_hazards.md R264: while the block is not READY, no step makes a bus write or emits a marker unless it takes an INIT; while it is halted
the same holds of a request (10_state.md R29, 60_exceptions.md R233). That an LCD word then makes none either is the model's choice (log 7). -/
def Obligations.NoEventBeforeReadyButInits : Prop :=
  ∀ s t : State, step s = .next t → ¬ s.accepts → (∀ a, s.inputs.head? ≠ some (.code (encode (.init a)))) → t.trace = s.trace

/-- 20_memory.md R53, 30_encoding.md R86, and of 41_bit_banger.md R144 the merging of BL: every bus write a step makes goes to `dev_addr`, has RW
clear and carries BL exactly when the backlight bit is set. -/
def Obligations.EveryBusWriteIsWellDriven : Prop :=
  ∀ s t : State, s.cfg.wf = true → step s = .next t →
    ∀ e ∈ newEvents s t, e.wellDriven s.cfg t.devAddr t.bl

/-- 30_encoding.md R86 over whole runs: that no write of the trace ever had RW set is kept by every step. -/
def Obligations.StepKeepsReadWriteLow : Prop :=
  ∀ s t : State, s.cfg.wf = true → step s = .next t →
    (∀ dev b answer, Event.write dev b answer ∈ s.trace → b &&& s.cfg.rwMask = 0) →
    ∀ dev b answer, Event.write dev b answer ∈ t.trace → b &&& t.cfg.rwMask = 0

/-- 70_reset_and_hazards.md R261 with 60_exceptions.md R232 and R233: before INIT has made the block READY, nothing a step does depends on `dev_addr`.
R261 speaks of requests; that an LCD word is refused then too, and so writes to no device, is the model's choice (log 7), and the idle step is log 6. -/
def Obligations.DevAddrIsNotReadBeforeInit : Prop :=
  ∀ (s : State) (d : Byte), s.initState ≠ .ready →
    ∃ t : State, step s = .next t ∧ (step { s with devAddr := d } = .next t ∨ step { s with devAddr := d } = .next { t with devAddr := d })

/-- 10_state.md R26 and R28: no step reads the cursor or `link_unknown`: changing them before a step changes nothing after it but themselves. -/
def Obligations.CursorAndLinkUnknownAreNotRead : Prop :=
  ∀ (s t u : State) (x : Coord) (b : Bool), step s = .next t → step { s with cursor := x, linkUnknown := b } = .next u →
    ∃ (y : Coord) (d : Bool), u = { t with cursor := y, linkUnknown := d }

/-- 70_reset_and_hazards.md R274, 44_passthrough_ops.md R217: the bus writes and the delay markers of every request that completes, and of every
refused one: none. An LCD word's six writes are 41_bit_banger.md R145's, and its own input is log 7. -/
def Obligations.WriteAndMarkerCounts : Prop :=
  ∀ (i : Instr) (s t : State), s.cfg.wf = true → (∀ x ∈ s.dirty, x.valid = true) → exec i s = .next t →
    (t.replies = s.replies ++ [.ok] →
      (writesOf (newEvents s t)).length = writeCount s i ∧ markersOf (newEvents s t) = markers i) ∧
    (∀ r, t.replies = s.replies ++ [.refused r] → newEvents s t = [])

/-- 70_reset_and_hazards.md R265: after a CLEAR or HOME that returns OK, in every timed trace that respects the delay markers, whatever follows comes at least
1.52 ms after the settle marker, the last event of the request. -/
def Obligations.NothingFollowsBeforeTheSettleTime : Prop :=
  ∀ (i : Instr) (s t : State), i = .clear ∨ i = .home → s.cfg.wf = true → exec i s = .next t → t.replies = s.replies ++ [.ok] →
    ∀ (timed : List (Nat × Event)) (later : List Event), timed.map Prod.snd = t.trace ++ later → respectsDelays s.cfg timed →
      ∃ (u : Nat) (k : DelayName), timed[t.trace.length - 1]? = some (u, .delay k) ∧ (k = .clearSettle ∨ k = .homeSettle) ∧
        ∀ q ∈ timed.drop t.trace.length, u + 1520 ≤ q.1

/-- 70_reset_and_hazards.md R270: with CLEAR_RESETS_MIRROR false, a SET_ROW of the text a row already holds, after a CLEAR, marks nothing dirty, and the
REFRESH after it writes nothing: the row stays blank downstream. -/
def Obligations.MirrorIsStaleAfterClear : Prop :=
  ∀ (s t u v : State) (a : Byte) (text : List Byte),
    s.cfg.wf = true → s.cfg.clearResetsMirror = false → s.accepts → s.acks 6 → a.toNat ≤ 3 →
    (∀ c, c < 20 → s.cellAt ⟨a.toNat, c⟩ = (normalizeText s.cfg.space text).getD c 0) →
    exec .clear s = .next t → exec (.setRow false a text) t = .next u → exec .refresh u = .next v →
    u.dirty = [] ∧ v.trace = t.trace ∧ v.replies = t.replies ++ [.ok, .ok] ∧
      ∀ c, c < 20 → v.cellAt ⟨a.toNat, c⟩ = (normalizeText s.cfg.space text).getD c 0

/-! ## Encoder, addresses, status word, pseudo-requests -/

/-- 40_command_encoder.md R133 (a) to (d), for each of the six parameterised commands and any select values: ENC(0) is the select value, ENC always contains it,
and ORing flags one by one or passing the select bit as a parameter changes nothing. -/
def Obligations.EncoderLaws : Prop :=
  ∀ (c : Config) (p q : Byte),
    ∀ f ∈ [(encEntry c, c.selEntry), (encDispctl c, c.selDispctl), (encShift c, c.selShift), (encFunction c, c.selFunction),
      (encCgram c, c.selCgram), (encDdram c, c.selDdram)],
    f.1 0 = f.2 ∧ f.1 p &&& f.2 = f.2 ∧ f.1 (p ||| q) = f.1 p ||| q ∧ f.1 (f.2 ||| p) = f.1 p

/-- 40_command_encoder.md R133 (e) on the default instance: with documented parameters a passthrough's byte is a word of its own command's row of the LCD table. -/
def Obligations.DocumentedParametersSelectTheirCommand : Prop :=
  ∀ p : Byte,
    ((Instr.setEntryMode p).documented = true →
      (decodeLcd (packLcd false (encEntry Config.default p))).mnemonic = "LCD_ENTRY_MODE") ∧
    ((Instr.setDisplayControl p).documented = true →
      (decodeLcd (packLcd false (encDispctl Config.default p))).mnemonic = "LCD_DISPLAY_CONTROL") ∧
    ((Instr.setShift p).documented = true →
      (decodeLcd (packLcd false (encShift Config.default p))).mnemonic = "LCD_SHIFT") ∧
    ((Instr.setFunction p).documented = true →
      (decodeLcd (packLcd false (encFunction Config.default p))).mnemonic = "LCD_FUNCTION_SET") ∧
    ((Instr.setCgramAddr p).documented = true →
      (decodeLcd (packLcd false (encCgram Config.default p))).mnemonic = "LCD_SET_CGRAM_ADDR")

/-- 20_memory.md R58, 43_display_memory_ops.md R180: the four row ranges, their disjointness over all 80 cells, and that the address is the set-DDRAM byte of the
default instance (30_encoding.md R90). -/
def Obligations.ControllerAddressMap : Prop :=
  (∀ c, c < 20 →
    controllerAddr ⟨0, c⟩ = 128 + c ∧ controllerAddr ⟨1, c⟩ = 192 + c ∧ controllerAddr ⟨2, c⟩ = 148 + c ∧ controllerAddr ⟨3, c⟩ = 212 + c) ∧
  (∀ x y : Coord, x.valid = true → y.valid = true → controllerAddr x = controllerAddr y → x = y) ∧
  (∀ x : Coord, x.valid = true →
    128 ≤ controllerAddr x ∧ controllerAddr x ≤ 231 ∧ (encDdram Config.default (ddramOperand x)).toNat = controllerAddr x)

/-- 30_encoding.md R100: the status in bits 1:0, the reason in bits 4:2 when refused and 0 otherwise, bits 7:5 zero. -/
def Obligations.StatusWordFields : Prop :=
  (∀ st : Status, st.word.extractLsb' 0 2 = st.code ∧ st.word.extractLsb' 5 3 = 0) ∧
  (∀ r : Reason, (Status.refused r).word.extractLsb' 2 3 = r.code) ∧
  Status.ok.word = 0x00 ∧ Status.transportError.word = 0x01 ∧ (∀ row col, (Status.invalidCoordinate row col).word = 0x03) ∧
  (Status.refused .halted).word = 0x06 ∧ (Status.refused .reservedOp).word = 0x0A ∧ (Status.refused .reservedField).word = 0x0E ∧
  (Status.refused .notReady).word = 0x12 ∧ (Status.refused .wrapUnimplemented).word = 0x16

/-- 30_encoding.md R98: TOGGLE_BACKLIGHT, expanded with the current bit, inverts it; PUT_ROW is SET_ROW then REFRESH; BLANK_ROW is a SET_ROW of 20 blanks. -/
def Obligations.PseudoRequestsExpand : Prop :=
  (∀ s : State, s.cfg.wf = true → s.accepts → s.acks 6 →
    ∃ (i : Instr) (t : State), RequestLine.toggleBacklight.expand s.bl = some [i] ∧ exec i s = .next t ∧ t.bl = !s.bl) ∧
  (∀ (r : Byte) (bs : List Byte) (bl : Bool),
    (RequestLine.putRow r (.bytes bs)).expand bl = some [.setRow false r bs, .refresh]) ∧
  (∀ (s : State) (r : Byte), s.accepts → Memory.wf s.cfg.space s.grid = true → r.toNat ≤ 3 →
    ∃ (i : Instr) (t : State), (RequestLine.blankRow r).expand s.bl = some [i] ∧ exec i s = .next t ∧
      ∀ c, c < 20 → t.cellAt ⟨r.toNat, c⟩ = s.cfg.space)

/-! ## The reference receiver (informative rules, 20_memory.md R70 to R77) -/

/-- 20_memory.md R71: a nibble's three writes latch exactly once, at the third, with its data bits and its rs. -/
def Obligations.NibbleLatchesOnce : Prop :=
  ∀ (c : Config) (bl : Bool) (n b : Byte) (m : Mode), c.wf = true → n = hiNibble b ∨ n = loNibble b →
    latches c false (nibbleBytes c bl (n ||| modeBit c m)) = [(n, decide (m = Mode.data))] ∧
    latches c false ((nibbleBytes c bl (n ||| modeBit c m)).take 2) = []

/-- 41_bit_banger.md R150: the six writes of a send, at a receiver in 4-bit mode at phase "high" that has settled (R76, log 23) and is not lost (log 13),
give back the byte and its mode as one instruction word. -/
def Obligations.SendRoundTrip : Prop :=
  ∀ (c : Config) (r : Receiver) (bl : Bool) (b : Byte) (m : Mode), c.wf = true → r.atByteStart →
    r.run c (ackedWrites r.addr (sendBytes c bl b m)) =
      { r with backlight := bl, seen := r.seen + 6 }.execute (decodeLcd (packLcd (decide (m = Mode.data)) b)) ∧
    latches c false (sendBytes c bl b m) = [(hiNibble b, decide (m = Mode.data)), (loNibble b, decide (m = Mode.data))]

/-- 20_memory.md R77: after a REFRESH that returns OK from a state with `link_unknown` 0, at a receiver that was in 4-bit mode at phase "high",
settled (R76, log 23) and not lost, the DDRAM holds the grid code of every cell that was dirty. The select value of set-DDRAM is the default's (general knowledge, GK2); the receiver's
rules are the informative ones (log 13). -/
def Obligations.RefreshConverges : Prop :=
  ∀ (s t : State) (r : Receiver), s.Inv → s.cfg.selDdram = 0x80 → s.linkUnknown = false → r.atByteStart → r.addr = s.devAddr →
    exec .refresh s = .next t → t.replies = s.replies ++ [.ok] →
    Memory.wf receiverBlank r.ddram = true →
    ∀ x ∈ s.dirty, (r.run s.cfg (newEvents s t)).holds x = s.cellAt x

/-- 10_state.md R33 with R28's premise, 20_memory.md R65: from a state with `link_unknown` 0, a REFRESH that returns OK leaves the receiver at the start
of a byte, settled (R76, log 23). Where the receiver's DDRAM held the mirror's clean cells it holds all 80; where the screen, in the 4-row layout and with shift-enable off,
showed the clean cells it shows all 80 and is still in that layout. The receiver's rules are the informative ones (log 13, log 22). -/
def Obligations.RefreshRestoresAgreement : Prop :=
  ∀ (s t : State) (r : Receiver), s.Inv → s.cfg.selDdram = 0x80 → s.linkUnknown = false → r.atByteStart → r.addr = s.devAddr →
    Memory.wf receiverBlank r.ddram = true → exec .refresh s = .next t → t.replies = s.replies ++ [.ok] →
    (r.run s.cfg (newEvents s t)).atByteStart ∧
    (MirrorHeld s r → ∀ x : Coord, x.valid = true → (r.run s.cfg (newEvents s t)).holds x = t.cellAt x) ∧
    (MirrorAgrees s r → r.inLayout = true → r.shiftEnable = false →
      (r.run s.cfg (newEvents s t)).inLayout = true ∧
      ∀ x : Coord, x.valid = true → (r.run s.cfg (newEvents s t)).shows x = t.cellAt x)

/-- 10_state.md R33 with R28's premise: SET_ROW, whatever its outcome, keeps the agreement of the clean cells, in the DDRAM and on the screen. -/
def Obligations.SetRowKeepsAgreement : Prop :=
  ∀ (w : Bool) (a : Byte) (text : List Byte) (s t : State) (r : Receiver), s.Inv → s.linkUnknown = false →
    exec (.setRow w a text) s = .next t →
    t.linkUnknown = false ∧ (MirrorHeld s r → MirrorHeld t r) ∧ (MirrorAgrees s r → MirrorAgrees t r)

/-- 20_memory.md R72, R76 and 42_initialization.md R169, with 10_state.md R28's premise: from a state with `link_unknown` 0, a complete INIT of the
default instance brings a receiver at power-on into 4-bit mode at the start of a byte, blank, with the display on, cursor and blink off, and the mirror
agrees with it, in the DDRAM and on the screen. After a failed write nothing is claimed of the display (U5, U8). The receiver's rules are the
informative ones (log 13, log 14, log 22, log 23). -/
def Obligations.InitBringsTheReceiverUp : Prop :=
  ∀ (s t : State) (a : Byte) (r : Receiver), s.cfg = Config.default → s.halted = false → s.linkUnknown = false → s.acks 18 →
    r.atPowerOn → r.addr = a → exec (.init a) s = .next t →
    (r.run s.cfg (newEvents s t)).atByteStart ∧ (r.run s.cfg (newEvents s t)).display = (true, false, false) ∧
    (r.run s.cfg (newEvents s t)).ddram = [] ∧ t.linkUnknown = false ∧
    MirrorHeld t (r.run s.cfg (newEvents s t)) ∧ MirrorAgrees t (r.run s.cfg (newEvents s t))
end

