-- ==== Sys2Proof/Laws/State.lean ====
section
/-! SUPPORT. What each update of the state does to each field; no later proof unfolds a record update. -/

namespace Sys2Proof.Machine

/-! ## reply -/

@[simp] theorem State.reply_cfg (s : State) (st : Status) : (s.reply st).cfg = s.cfg := rfl
@[simp] theorem State.reply_initState (s : State) (st : Status) : (s.reply st).initState = s.initState := rfl
@[simp] theorem State.reply_bl (s : State) (st : Status) : (s.reply st).bl = s.bl := rfl
@[simp] theorem State.reply_cursor (s : State) (st : Status) : (s.reply st).cursor = s.cursor := rfl
@[simp] theorem State.reply_devAddr (s : State) (st : Status) : (s.reply st).devAddr = s.devAddr := rfl
@[simp] theorem State.reply_linkUnknown (s : State) (st : Status) : (s.reply st).linkUnknown = s.linkUnknown := rfl
@[simp] theorem State.reply_halted (s : State) (st : Status) : (s.reply st).halted = s.halted := rfl
@[simp] theorem State.reply_grid (s : State) (st : Status) : (s.reply st).grid = s.grid := rfl
@[simp] theorem State.reply_dirty (s : State) (st : Status) : (s.reply st).dirty = s.dirty := rfl
@[simp] theorem State.reply_inputs (s : State) (st : Status) : (s.reply st).inputs = s.inputs := rfl
@[simp] theorem State.reply_replies (s : State) (st : Status) : (s.reply st).replies = s.replies ++ [st] := rfl
@[simp] theorem State.reply_trace (s : State) (st : Status) : (s.reply st).trace = s.trace := rfl
@[simp] theorem State.reply_answers (s : State) (st : Status) : (s.reply st).answers = s.answers := rfl
@[simp] theorem State.reply_draws (s : State) (st : Status) : (s.reply st).draws = s.draws := rfl

/-! ## delay -/

@[simp] theorem State.delay_cfg (s : State) (k : DelayName) : (s.delay k).cfg = s.cfg := rfl
@[simp] theorem State.delay_initState (s : State) (k : DelayName) : (s.delay k).initState = s.initState := rfl
@[simp] theorem State.delay_bl (s : State) (k : DelayName) : (s.delay k).bl = s.bl := rfl
@[simp] theorem State.delay_cursor (s : State) (k : DelayName) : (s.delay k).cursor = s.cursor := rfl
@[simp] theorem State.delay_devAddr (s : State) (k : DelayName) : (s.delay k).devAddr = s.devAddr := rfl
@[simp] theorem State.delay_linkUnknown (s : State) (k : DelayName) : (s.delay k).linkUnknown = s.linkUnknown := rfl
@[simp] theorem State.delay_halted (s : State) (k : DelayName) : (s.delay k).halted = s.halted := rfl
@[simp] theorem State.delay_grid (s : State) (k : DelayName) : (s.delay k).grid = s.grid := rfl
@[simp] theorem State.delay_dirty (s : State) (k : DelayName) : (s.delay k).dirty = s.dirty := rfl
@[simp] theorem State.delay_inputs (s : State) (k : DelayName) : (s.delay k).inputs = s.inputs := rfl
@[simp] theorem State.delay_replies (s : State) (k : DelayName) : (s.delay k).replies = s.replies := rfl
@[simp] theorem State.delay_trace (s : State) (k : DelayName) : (s.delay k).trace = s.trace ++ [.delay k] := rfl
@[simp] theorem State.delay_answers (s : State) (k : DelayName) : (s.delay k).answers = s.answers := rfl
@[simp] theorem State.delay_draws (s : State) (k : DelayName) : (s.delay k).draws = s.draws := rfl

/-! ## written -/

@[simp] theorem State.written_cfg (s : State) (b : Byte) : (s.written b).cfg = s.cfg := rfl
@[simp] theorem State.written_initState (s : State) (b : Byte) : (s.written b).initState = s.initState := rfl
@[simp] theorem State.written_bl (s : State) (b : Byte) : (s.written b).bl = s.bl := rfl
@[simp] theorem State.written_cursor (s : State) (b : Byte) : (s.written b).cursor = s.cursor := rfl
@[simp] theorem State.written_devAddr (s : State) (b : Byte) : (s.written b).devAddr = s.devAddr := rfl
@[simp] theorem State.written_linkUnknown (s : State) (b : Byte) : (s.written b).linkUnknown = s.linkUnknown := rfl
@[simp] theorem State.written_halted (s : State) (b : Byte) : (s.written b).halted = s.halted := rfl
@[simp] theorem State.written_grid (s : State) (b : Byte) : (s.written b).grid = s.grid := rfl
@[simp] theorem State.written_dirty (s : State) (b : Byte) : (s.written b).dirty = s.dirty := rfl
@[simp] theorem State.written_inputs (s : State) (b : Byte) : (s.written b).inputs = s.inputs := rfl
@[simp] theorem State.written_replies (s : State) (b : Byte) : (s.written b).replies = s.replies := rfl
@[simp] theorem State.written_trace (s : State) (b : Byte) : (s.written b).trace = s.trace ++ [.write s.devAddr b (s.answerAt 0)] := rfl
@[simp] theorem State.written_answers (s : State) (b : Byte) : (s.written b).answers = s.answers.tail := rfl
@[simp] theorem State.written_draws (s : State) (b : Byte) : (s.written b).draws = s.draws + 1 := rfl

/-! ## writeCell -/

@[simp] theorem State.writeCell_cfg (s : State) (x : Coord) (v : Byte) : (s.writeCell x v).cfg = s.cfg := rfl
@[simp] theorem State.writeCell_initState (s : State) (x : Coord) (v : Byte) : (s.writeCell x v).initState = s.initState := rfl
@[simp] theorem State.writeCell_bl (s : State) (x : Coord) (v : Byte) : (s.writeCell x v).bl = s.bl := rfl
@[simp] theorem State.writeCell_cursor (s : State) (x : Coord) (v : Byte) : (s.writeCell x v).cursor = s.cursor := rfl
@[simp] theorem State.writeCell_devAddr (s : State) (x : Coord) (v : Byte) : (s.writeCell x v).devAddr = s.devAddr := rfl
@[simp] theorem State.writeCell_linkUnknown (s : State) (x : Coord) (v : Byte) : (s.writeCell x v).linkUnknown = s.linkUnknown := rfl
@[simp] theorem State.writeCell_halted (s : State) (x : Coord) (v : Byte) : (s.writeCell x v).halted = s.halted := rfl
@[simp] theorem State.writeCell_grid (s : State) (x : Coord) (v : Byte) : (s.writeCell x v).grid = Memory.write s.cfg.space s.grid x.cell v := rfl
@[simp] theorem State.writeCell_dirty (s : State) (x : Coord) (v : Byte) : (s.writeCell x v).dirty = s.dirty := rfl
@[simp] theorem State.writeCell_inputs (s : State) (x : Coord) (v : Byte) : (s.writeCell x v).inputs = s.inputs := rfl
@[simp] theorem State.writeCell_replies (s : State) (x : Coord) (v : Byte) : (s.writeCell x v).replies = s.replies := rfl
@[simp] theorem State.writeCell_trace (s : State) (x : Coord) (v : Byte) : (s.writeCell x v).trace = s.trace := rfl
@[simp] theorem State.writeCell_answers (s : State) (x : Coord) (v : Byte) : (s.writeCell x v).answers = s.answers := rfl
@[simp] theorem State.writeCell_draws (s : State) (x : Coord) (v : Byte) : (s.writeCell x v).draws = s.draws := rfl

/-! ## blankGrid -/

@[simp] theorem State.blankGrid_cfg (s : State) : s.blankGrid.cfg = s.cfg := rfl
@[simp] theorem State.blankGrid_initState (s : State) : s.blankGrid.initState = s.initState := rfl
@[simp] theorem State.blankGrid_bl (s : State) : s.blankGrid.bl = s.bl := rfl
@[simp] theorem State.blankGrid_cursor (s : State) : s.blankGrid.cursor = s.cursor := rfl
@[simp] theorem State.blankGrid_devAddr (s : State) : s.blankGrid.devAddr = s.devAddr := rfl
@[simp] theorem State.blankGrid_linkUnknown (s : State) : s.blankGrid.linkUnknown = s.linkUnknown := rfl
@[simp] theorem State.blankGrid_halted (s : State) : s.blankGrid.halted = s.halted := rfl
@[simp] theorem State.blankGrid_grid (s : State) : s.blankGrid.grid = [] := rfl
@[simp] theorem State.blankGrid_dirty (s : State) : s.blankGrid.dirty = s.dirty := rfl
@[simp] theorem State.blankGrid_inputs (s : State) : s.blankGrid.inputs = s.inputs := rfl
@[simp] theorem State.blankGrid_replies (s : State) : s.blankGrid.replies = s.replies := rfl
@[simp] theorem State.blankGrid_trace (s : State) : s.blankGrid.trace = s.trace := rfl
@[simp] theorem State.blankGrid_answers (s : State) : s.blankGrid.answers = s.answers := rfl
@[simp] theorem State.blankGrid_draws (s : State) : s.blankGrid.draws = s.draws := rfl

/-! ## resetInput -/

@[simp] theorem State.resetInput_cfg (s : State) : s.resetInput.cfg = s.cfg := rfl
@[simp] theorem State.resetInput_initState (s : State) : s.resetInput.initState = .uninit := rfl
@[simp] theorem State.resetInput_bl (s : State) : s.resetInput.bl = s.cfg.backlightReset := rfl
@[simp] theorem State.resetInput_cursor (s : State) : s.resetInput.cursor = ⟨0, 0⟩ := rfl
@[simp] theorem State.resetInput_devAddr (s : State) : s.resetInput.devAddr = devAddrAtReset := rfl
@[simp] theorem State.resetInput_linkUnknown (s : State) : s.resetInput.linkUnknown = false := rfl
@[simp] theorem State.resetInput_halted (s : State) : s.resetInput.halted = false := rfl
@[simp] theorem State.resetInput_grid (s : State) : s.resetInput.grid = [] := rfl
@[simp] theorem State.resetInput_dirty (s : State) : s.resetInput.dirty = [] := rfl
@[simp] theorem State.resetInput_inputs (s : State) : s.resetInput.inputs = s.inputs := rfl
@[simp] theorem State.resetInput_replies (s : State) : s.resetInput.replies = s.replies := rfl
@[simp] theorem State.resetInput_trace (s : State) : s.resetInput.trace = s.trace := rfl
@[simp] theorem State.resetInput_answers (s : State) : s.resetInput.answers = s.answers := rfl
@[simp] theorem State.resetInput_draws (s : State) : s.resetInput.draws = s.draws := rfl

/-! ## initReset -/

@[simp] theorem initReset_cfg (a : Byte) (s : State) : (initReset a s).cfg = s.cfg := rfl
@[simp] theorem initReset_initState (a : Byte) (s : State) : (initReset a s).initState = .uninit := rfl
@[simp] theorem initReset_bl (a : Byte) (s : State) : (initReset a s).bl = s.cfg.backlightReset := rfl
@[simp] theorem initReset_cursor (a : Byte) (s : State) : (initReset a s).cursor = ⟨0, 0⟩ := rfl
@[simp] theorem initReset_devAddr (a : Byte) (s : State) : (initReset a s).devAddr = a := rfl
@[simp] theorem initReset_linkUnknown (a : Byte) (s : State) : (initReset a s).linkUnknown = false := rfl
@[simp] theorem initReset_halted (a : Byte) (s : State) : (initReset a s).halted = s.halted := rfl
@[simp] theorem initReset_grid (a : Byte) (s : State) : (initReset a s).grid = [] := rfl
@[simp] theorem initReset_dirty (a : Byte) (s : State) : (initReset a s).dirty = [] := rfl
@[simp] theorem initReset_inputs (a : Byte) (s : State) : (initReset a s).inputs = s.inputs := rfl
@[simp] theorem initReset_replies (a : Byte) (s : State) : (initReset a s).replies = s.replies := rfl
@[simp] theorem initReset_trace (a : Byte) (s : State) : (initReset a s).trace = s.trace := rfl
@[simp] theorem initReset_answers (a : Byte) (s : State) : (initReset a s).answers = s.answers := rfl
@[simp] theorem initReset_draws (a : Byte) (s : State) : (initReset a s).draws = s.draws := rfl

/-! ## initWait -/

@[simp] theorem initWait_cfg (s : State) : (initWait s).cfg = s.cfg := rfl
@[simp] theorem initWait_initState (s : State) : (initWait s).initState = .forcing := rfl
@[simp] theorem initWait_bl (s : State) : (initWait s).bl = s.bl := rfl
@[simp] theorem initWait_cursor (s : State) : (initWait s).cursor = s.cursor := rfl
@[simp] theorem initWait_devAddr (s : State) : (initWait s).devAddr = s.devAddr := rfl
@[simp] theorem initWait_linkUnknown (s : State) : (initWait s).linkUnknown = s.linkUnknown := rfl
@[simp] theorem initWait_halted (s : State) : (initWait s).halted = s.halted := rfl
@[simp] theorem initWait_grid (s : State) : (initWait s).grid = s.grid := rfl
@[simp] theorem initWait_dirty (s : State) : (initWait s).dirty = s.dirty := rfl
@[simp] theorem initWait_inputs (s : State) : (initWait s).inputs = s.inputs := rfl
@[simp] theorem initWait_replies (s : State) : (initWait s).replies = s.replies := rfl
@[simp] theorem initWait_trace (s : State) : (initWait s).trace = s.trace ++ [.delay .powerOnWait] := rfl
@[simp] theorem initWait_answers (s : State) : (initWait s).answers = s.answers := rfl
@[simp] theorem initWait_draws (s : State) : (initWait s).draws = s.draws := rfl

/-! ## popInput -/

@[simp] theorem State.popInput_cfg (s : State) : s.popInput.cfg = s.cfg := rfl
@[simp] theorem State.popInput_initState (s : State) : s.popInput.initState = s.initState := rfl
@[simp] theorem State.popInput_bl (s : State) : s.popInput.bl = s.bl := rfl
@[simp] theorem State.popInput_cursor (s : State) : s.popInput.cursor = s.cursor := rfl
@[simp] theorem State.popInput_devAddr (s : State) : s.popInput.devAddr = s.devAddr := rfl
@[simp] theorem State.popInput_linkUnknown (s : State) : s.popInput.linkUnknown = s.linkUnknown := rfl
@[simp] theorem State.popInput_halted (s : State) : s.popInput.halted = s.halted := rfl
@[simp] theorem State.popInput_grid (s : State) : s.popInput.grid = s.grid := rfl
@[simp] theorem State.popInput_dirty (s : State) : s.popInput.dirty = s.dirty := rfl
@[simp] theorem State.popInput_inputs (s : State) : s.popInput.inputs = s.inputs.tail := rfl
@[simp] theorem State.popInput_replies (s : State) : s.popInput.replies = s.replies := rfl
@[simp] theorem State.popInput_trace (s : State) : s.popInput.trace = s.trace := rfl
@[simp] theorem State.popInput_answers (s : State) : s.popInput.answers = s.answers := rfl
@[simp] theorem State.popInput_draws (s : State) : s.popInput.draws = s.draws := rfl

/-! ## afterBytes -/

@[simp] theorem State.afterBytes_cfg (s : State) (bs : List Byte) : (s.afterBytes bs).cfg = s.cfg := rfl
@[simp] theorem State.afterBytes_initState (s : State) (bs : List Byte) : (s.afterBytes bs).initState = s.initState := rfl
@[simp] theorem State.afterBytes_bl (s : State) (bs : List Byte) : (s.afterBytes bs).bl = s.bl := rfl
@[simp] theorem State.afterBytes_cursor (s : State) (bs : List Byte) : (s.afterBytes bs).cursor = s.cursor := rfl
@[simp] theorem State.afterBytes_devAddr (s : State) (bs : List Byte) : (s.afterBytes bs).devAddr = s.devAddr := rfl
@[simp] theorem State.afterBytes_linkUnknown (s : State) (bs : List Byte) : (s.afterBytes bs).linkUnknown = s.linkUnknown := rfl
@[simp] theorem State.afterBytes_halted (s : State) (bs : List Byte) : (s.afterBytes bs).halted = s.halted := rfl
@[simp] theorem State.afterBytes_grid (s : State) (bs : List Byte) : (s.afterBytes bs).grid = s.grid := rfl
@[simp] theorem State.afterBytes_dirty (s : State) (bs : List Byte) : (s.afterBytes bs).dirty = s.dirty := rfl
@[simp] theorem State.afterBytes_inputs (s : State) (bs : List Byte) : (s.afterBytes bs).inputs = s.inputs := rfl
@[simp] theorem State.afterBytes_replies (s : State) (bs : List Byte) : (s.afterBytes bs).replies = s.replies := rfl
@[simp] theorem State.afterBytes_trace (s : State) (bs : List Byte) : (s.afterBytes bs).trace = s.trace ++ ackedWrites s.devAddr bs := rfl
@[simp] theorem State.afterBytes_answers (s : State) (bs : List Byte) : (s.afterBytes bs).answers = s.answers.drop bs.length := rfl
@[simp] theorem State.afterBytes_draws (s : State) (bs : List Byte) : (s.afterBytes bs).draws = s.draws + bs.length := rfl

/-! ## transportFailed -/

@[simp] theorem State.transportFailed_cfg (s : State) : s.transportFailed.cfg = s.cfg := rfl
@[simp] theorem State.transportFailed_initState (s : State) : s.transportFailed.initState = s.initState := rfl
@[simp] theorem State.transportFailed_bl (s : State) : s.transportFailed.bl = s.bl := rfl
@[simp] theorem State.transportFailed_cursor (s : State) : s.transportFailed.cursor = s.cursor := rfl
@[simp] theorem State.transportFailed_devAddr (s : State) : s.transportFailed.devAddr = s.devAddr := rfl
@[simp] theorem State.transportFailed_linkUnknown (s : State) : s.transportFailed.linkUnknown = true := rfl
@[simp] theorem State.transportFailed_halted (s : State) : s.transportFailed.halted = s.halted := rfl
@[simp] theorem State.transportFailed_grid (s : State) : s.transportFailed.grid = s.grid := rfl
@[simp] theorem State.transportFailed_dirty (s : State) : s.transportFailed.dirty = s.dirty := rfl
@[simp] theorem State.transportFailed_inputs (s : State) : s.transportFailed.inputs = s.inputs := rfl
@[simp] theorem State.transportFailed_replies (s : State) : s.transportFailed.replies = s.replies ++ [.transportError] := rfl
@[simp] theorem State.transportFailed_trace (s : State) : s.transportFailed.trace = s.trace := rfl
@[simp] theorem State.transportFailed_answers (s : State) : s.transportFailed.answers = s.answers := rfl
@[simp] theorem State.transportFailed_draws (s : State) : s.transportFailed.draws = s.draws := rfl

/-! ## afterNack -/

@[simp] theorem State.afterNack_cfg (s : State) (bs : List Byte) (k : Nat) : (s.afterNack bs k).cfg = s.cfg := rfl
@[simp] theorem State.afterNack_initState (s : State) (bs : List Byte) (k : Nat) : (s.afterNack bs k).initState = s.initState := rfl
@[simp] theorem State.afterNack_bl (s : State) (bs : List Byte) (k : Nat) : (s.afterNack bs k).bl = s.bl := rfl
@[simp] theorem State.afterNack_cursor (s : State) (bs : List Byte) (k : Nat) : (s.afterNack bs k).cursor = s.cursor := rfl
@[simp] theorem State.afterNack_devAddr (s : State) (bs : List Byte) (k : Nat) : (s.afterNack bs k).devAddr = s.devAddr := rfl
@[simp] theorem State.afterNack_linkUnknown (s : State) (bs : List Byte) (k : Nat) : (s.afterNack bs k).linkUnknown = s.linkUnknown := rfl
@[simp] theorem State.afterNack_halted (s : State) (bs : List Byte) (k : Nat) : (s.afterNack bs k).halted = s.halted := rfl
@[simp] theorem State.afterNack_grid (s : State) (bs : List Byte) (k : Nat) : (s.afterNack bs k).grid = s.grid := rfl
@[simp] theorem State.afterNack_dirty (s : State) (bs : List Byte) (k : Nat) : (s.afterNack bs k).dirty = s.dirty := rfl
@[simp] theorem State.afterNack_inputs (s : State) (bs : List Byte) (k : Nat) : (s.afterNack bs k).inputs = s.inputs := rfl
@[simp] theorem State.afterNack_replies (s : State) (bs : List Byte) (k : Nat) : (s.afterNack bs k).replies = s.replies := rfl
@[simp] theorem State.afterNack_trace (s : State) (bs : List Byte) (k : Nat) : (s.afterNack bs k).trace = s.trace ++ ackedWrites s.devAddr (bs.take k) ++ [.write s.devAddr (bs.getD k 0) .nack] := rfl
@[simp] theorem State.afterNack_answers (s : State) (bs : List Byte) (k : Nat) : (s.afterNack bs k).answers = s.answers.drop (k + 1) := rfl
@[simp] theorem State.afterNack_draws (s : State) (bs : List Byte) (k : Nat) : (s.afterNack bs k).draws = s.draws + (k + 1) := rfl

/-! ## markDirty, setCell, clearTail and takeError branch; the fields no branch writes -/

@[simp] theorem State.markDirty_cfg (s : State) (x : Coord) : (s.markDirty x).cfg = s.cfg := by
  unfold State.markDirty; split <;> rfl
@[simp] theorem State.markDirty_initState (s : State) (x : Coord) : (s.markDirty x).initState = s.initState := by
  unfold State.markDirty; split <;> rfl
@[simp] theorem State.markDirty_bl (s : State) (x : Coord) : (s.markDirty x).bl = s.bl := by
  unfold State.markDirty; split <;> rfl
@[simp] theorem State.markDirty_cursor (s : State) (x : Coord) : (s.markDirty x).cursor = s.cursor := by
  unfold State.markDirty; split <;> rfl
@[simp] theorem State.markDirty_devAddr (s : State) (x : Coord) : (s.markDirty x).devAddr = s.devAddr := by
  unfold State.markDirty; split <;> rfl
@[simp] theorem State.markDirty_linkUnknown (s : State) (x : Coord) : (s.markDirty x).linkUnknown = s.linkUnknown := by
  unfold State.markDirty; split <;> rfl
@[simp] theorem State.markDirty_halted (s : State) (x : Coord) : (s.markDirty x).halted = s.halted := by
  unfold State.markDirty; split <;> rfl
@[simp] theorem State.markDirty_grid (s : State) (x : Coord) : (s.markDirty x).grid = s.grid := by
  unfold State.markDirty; split <;> rfl
@[simp] theorem State.markDirty_inputs (s : State) (x : Coord) : (s.markDirty x).inputs = s.inputs := by
  unfold State.markDirty; split <;> rfl
@[simp] theorem State.markDirty_replies (s : State) (x : Coord) : (s.markDirty x).replies = s.replies := by
  unfold State.markDirty; split <;> rfl
@[simp] theorem State.markDirty_trace (s : State) (x : Coord) : (s.markDirty x).trace = s.trace := by
  unfold State.markDirty; split <;> rfl
@[simp] theorem State.markDirty_answers (s : State) (x : Coord) : (s.markDirty x).answers = s.answers := by
  unfold State.markDirty; split <;> rfl
@[simp] theorem State.markDirty_draws (s : State) (x : Coord) : (s.markDirty x).draws = s.draws := by
  unfold State.markDirty; split <;> rfl
@[simp] theorem setCell_cfg (x : Coord) (v : Byte) (s : State) : (setCell x v s).cfg = s.cfg := by
  unfold setCell; split <;> simp
@[simp] theorem setCell_initState (x : Coord) (v : Byte) (s : State) : (setCell x v s).initState = s.initState := by
  unfold setCell; split <;> simp
@[simp] theorem setCell_bl (x : Coord) (v : Byte) (s : State) : (setCell x v s).bl = s.bl := by
  unfold setCell; split <;> simp
@[simp] theorem setCell_cursor (x : Coord) (v : Byte) (s : State) : (setCell x v s).cursor = s.cursor := by
  unfold setCell; split <;> simp
@[simp] theorem setCell_devAddr (x : Coord) (v : Byte) (s : State) : (setCell x v s).devAddr = s.devAddr := by
  unfold setCell; split <;> simp
@[simp] theorem setCell_linkUnknown (x : Coord) (v : Byte) (s : State) : (setCell x v s).linkUnknown = s.linkUnknown := by
  unfold setCell; split <;> simp
@[simp] theorem setCell_halted (x : Coord) (v : Byte) (s : State) : (setCell x v s).halted = s.halted := by
  unfold setCell; split <;> simp
@[simp] theorem setCell_inputs (x : Coord) (v : Byte) (s : State) : (setCell x v s).inputs = s.inputs := by
  unfold setCell; split <;> simp
@[simp] theorem setCell_replies (x : Coord) (v : Byte) (s : State) : (setCell x v s).replies = s.replies := by
  unfold setCell; split <;> simp
@[simp] theorem setCell_trace (x : Coord) (v : Byte) (s : State) : (setCell x v s).trace = s.trace := by
  unfold setCell; split <;> simp
@[simp] theorem setCell_answers (x : Coord) (v : Byte) (s : State) : (setCell x v s).answers = s.answers := by
  unfold setCell; split <;> simp
@[simp] theorem setCell_draws (x : Coord) (v : Byte) (s : State) : (setCell x v s).draws = s.draws := by
  unfold setCell; split <;> simp
@[simp] theorem setCells_cfg (r : Nat) (c : Nat) (t : List Byte) (s : State) : (setCells r c t s).cfg = s.cfg := by
  induction t generalizing c s with
  | nil => rfl
  | cons v t ih => simp [setCells, ih]
@[simp] theorem setCells_initState (r : Nat) (c : Nat) (t : List Byte) (s : State) : (setCells r c t s).initState = s.initState := by
  induction t generalizing c s with
  | nil => rfl
  | cons v t ih => simp [setCells, ih]
@[simp] theorem setCells_bl (r : Nat) (c : Nat) (t : List Byte) (s : State) : (setCells r c t s).bl = s.bl := by
  induction t generalizing c s with
  | nil => rfl
  | cons v t ih => simp [setCells, ih]
@[simp] theorem setCells_cursor (r : Nat) (c : Nat) (t : List Byte) (s : State) : (setCells r c t s).cursor = s.cursor := by
  induction t generalizing c s with
  | nil => rfl
  | cons v t ih => simp [setCells, ih]
@[simp] theorem setCells_devAddr (r : Nat) (c : Nat) (t : List Byte) (s : State) : (setCells r c t s).devAddr = s.devAddr := by
  induction t generalizing c s with
  | nil => rfl
  | cons v t ih => simp [setCells, ih]
@[simp] theorem setCells_linkUnknown (r : Nat) (c : Nat) (t : List Byte) (s : State) : (setCells r c t s).linkUnknown = s.linkUnknown := by
  induction t generalizing c s with
  | nil => rfl
  | cons v t ih => simp [setCells, ih]
@[simp] theorem setCells_halted (r : Nat) (c : Nat) (t : List Byte) (s : State) : (setCells r c t s).halted = s.halted := by
  induction t generalizing c s with
  | nil => rfl
  | cons v t ih => simp [setCells, ih]
@[simp] theorem setCells_inputs (r : Nat) (c : Nat) (t : List Byte) (s : State) : (setCells r c t s).inputs = s.inputs := by
  induction t generalizing c s with
  | nil => rfl
  | cons v t ih => simp [setCells, ih]
@[simp] theorem setCells_replies (r : Nat) (c : Nat) (t : List Byte) (s : State) : (setCells r c t s).replies = s.replies := by
  induction t generalizing c s with
  | nil => rfl
  | cons v t ih => simp [setCells, ih]
@[simp] theorem setCells_trace (r : Nat) (c : Nat) (t : List Byte) (s : State) : (setCells r c t s).trace = s.trace := by
  induction t generalizing c s with
  | nil => rfl
  | cons v t ih => simp [setCells, ih]
@[simp] theorem setCells_answers (r : Nat) (c : Nat) (t : List Byte) (s : State) : (setCells r c t s).answers = s.answers := by
  induction t generalizing c s with
  | nil => rfl
  | cons v t ih => simp [setCells, ih]
@[simp] theorem setCells_draws (r : Nat) (c : Nat) (t : List Byte) (s : State) : (setCells r c t s).draws = s.draws := by
  induction t generalizing c s with
  | nil => rfl
  | cons v t ih => simp [setCells, ih]
@[simp] theorem clearTail_cfg (s : State) : (clearTail s).cfg = s.cfg := by
  unfold clearTail; dsimp only; split <;> rfl
@[simp] theorem clearTail_initState (s : State) : (clearTail s).initState = s.initState := by
  unfold clearTail; dsimp only; split <;> rfl
@[simp] theorem clearTail_bl (s : State) : (clearTail s).bl = s.bl := by
  unfold clearTail; dsimp only; split <;> rfl
@[simp] theorem clearTail_cursor (s : State) : (clearTail s).cursor = ⟨0, 0⟩ := by
  unfold clearTail; dsimp only; split <;> rfl
@[simp] theorem clearTail_devAddr (s : State) : (clearTail s).devAddr = s.devAddr := by
  unfold clearTail; dsimp only; split <;> rfl
@[simp] theorem clearTail_linkUnknown (s : State) : (clearTail s).linkUnknown = s.linkUnknown := by
  unfold clearTail; dsimp only; split <;> rfl
@[simp] theorem clearTail_halted (s : State) : (clearTail s).halted = s.halted := by
  unfold clearTail; dsimp only; split <;> rfl
@[simp] theorem clearTail_grid (s : State) : (clearTail s).grid = if s.cfg.clearResetsMirror then [] else s.grid := by
  unfold clearTail; dsimp only; split <;> rfl
@[simp] theorem clearTail_dirty (s : State) : (clearTail s).dirty = [] := by
  unfold clearTail; dsimp only; split <;> rfl
@[simp] theorem clearTail_inputs (s : State) : (clearTail s).inputs = s.inputs := by
  unfold clearTail; dsimp only; split <;> rfl
@[simp] theorem clearTail_replies (s : State) : (clearTail s).replies = s.replies := by
  unfold clearTail; dsimp only; split <;> rfl
@[simp] theorem clearTail_trace (s : State) : (clearTail s).trace = s.trace ++ [.delay .clearSettle] := by
  unfold clearTail; dsimp only; split <;> rfl
@[simp] theorem clearTail_answers (s : State) : (clearTail s).answers = s.answers := by
  unfold clearTail; dsimp only; split <;> rfl
@[simp] theorem clearTail_draws (s : State) : (clearTail s).draws = s.draws := by
  unfold clearTail; dsimp only; split <;> rfl
@[simp] theorem State.takeError_cfg (s : State) (e : Raise) : (s.takeError e).cfg = s.cfg := by cases e <;> rfl
@[simp] theorem State.takeError_initState (s : State) (e : Raise) : (s.takeError e).initState = s.initState := by cases e <;> rfl
@[simp] theorem State.takeError_bl (s : State) (e : Raise) : (s.takeError e).bl = s.bl := by cases e <;> rfl
@[simp] theorem State.takeError_cursor (s : State) (e : Raise) : (s.takeError e).cursor = s.cursor := by cases e <;> rfl
@[simp] theorem State.takeError_devAddr (s : State) (e : Raise) : (s.takeError e).devAddr = s.devAddr := by cases e <;> rfl
@[simp] theorem State.takeError_grid (s : State) (e : Raise) : (s.takeError e).grid = s.grid := by cases e <;> rfl
@[simp] theorem State.takeError_dirty (s : State) (e : Raise) : (s.takeError e).dirty = s.dirty := by cases e <;> rfl
@[simp] theorem State.takeError_inputs (s : State) (e : Raise) : (s.takeError e).inputs = s.inputs := by cases e <;> rfl
@[simp] theorem State.takeError_trace (s : State) (e : Raise) : (s.takeError e).trace = s.trace := by cases e <;> rfl
@[simp] theorem State.takeError_answers (s : State) (e : Raise) : (s.takeError e).answers = s.answers := by cases e <;> rfl
@[simp] theorem State.takeError_draws (s : State) (e : Raise) : (s.takeError e).draws = s.draws := by cases e <;> rfl

/-! ## RESET -/

/-- The state after reset is what the RESET input leaves (70_reset_and_hazards.md R260, R261). -/
theorem reset_eq_resetInput : State.reset.resetInput = State.reset := rfl

/-- Two states with the same fields are the same state. -/
theorem State.ext_fields {s t : State} (h1 : s.cfg = t.cfg) (h2 : s.initState = t.initState) (h3 : s.bl = t.bl)
    (h4 : s.cursor = t.cursor) (h5 : s.devAddr = t.devAddr) (h6 : s.linkUnknown = t.linkUnknown) (h7 : s.halted = t.halted)
    (h8 : s.grid = t.grid) (h9 : s.dirty = t.dirty) (h10 : s.inputs = t.inputs) (h11 : s.replies = t.replies)
    (h12 : s.trace = t.trace) (h13 : s.answers = t.answers) (h14 : s.draws = t.draws) : s = t := by
  cases s; cases t; simp_all

end Sys2Proof.Machine
end

