-- ==== Sys2Proof/Laws/Bus.lean ====
section
/-! SUPPORT. Bus writes: what a list of them does to the state, and that `send` and `write4bits` are the writes of their closed forms. -/

namespace Sys2Proof.Machine

/-! ## Runs -/

@[simp] theorem Run.andThen_done (s : State) (f : State → Run) : (Run.done s).andThen f = f s := rfl

@[simp] theorem Run.andThen_raised (e : Raise) (s : State) (f : State → Run) : (Run.raised e s).andThen f = .raised e s := rfl

theorem Run.andThen_assoc (r : Run) (f g : State → Run) : (r.andThen f).andThen g = r.andThen fun s => (f s).andThen g := by
  cases r <;> rfl

/-! ## The answers ahead -/

theorem State.answerAt_written (s : State) (b : Byte) (k : Nat) : (s.written b).answerAt k = s.answerAt (k + 1) := by
  unfold State.answerAt
  rw [State.written_answers, State.written_draws]
  cases h : s.answers with
  | nil => simp [Nat.add_assoc, Nat.add_comm 1 k]
  | cons a as => simp [Nat.add_assoc, Nat.add_comm 1 k]

theorem State.answerAt_afterBytes (s : State) (bs : List Byte) (k : Nat) :
    (s.afterBytes bs).answerAt k = s.answerAt (bs.length + k) := by
  unfold State.answerAt
  simp [List.getElem?_drop, Nat.add_assoc]

/-- The answers ahead depend on the answer list and the counter alone. -/
theorem State.answerAt_congr {s t : State} (ha : t.answers = s.answers) (hd : t.draws = s.draws) (k : Nat) :
    t.answerAt k = s.answerAt k := by
  simp [State.answerAt, ha, hd]

theorem State.acks_congr {s t : State} (ha : t.answers = s.answers) (hd : t.draws = s.draws) {n : Nat} (h : s.acks n) : t.acks n :=
  fun k hk => by rw [State.answerAt_congr ha hd]; exact h k hk

theorem State.nacksAt_congr {s t : State} (ha : t.answers = s.answers) (hd : t.draws = s.draws) {k : Nat} (h : s.nacksAt k) :
    t.nacksAt k :=
  ⟨State.acks_congr ha hd h.1, by rw [State.answerAt_congr ha hd]; exact h.2⟩

theorem State.acks_mono {s : State} {m n : Nat} (h : s.acks n) (hmn : m ≤ n) : s.acks m := fun k hk => h k (Nat.lt_of_lt_of_le hk hmn)

theorem State.acks_afterBytes {s : State} {bs : List Byte} {n : Nat} (h : s.acks (bs.length + n)) : (s.afterBytes bs).acks n :=
  fun k hk => by rw [State.answerAt_afterBytes]; exact h _ (by omega)

/-- Either the next `n` writes are ACKed or one of them is the first NACKed. -/
theorem State.acks_or_nacksAt (s : State) (n : Nat) : s.acks n ∨ ∃ k, k < n ∧ s.nacksAt k := by
  induction n with
  | zero => exact .inl fun k hk => absurd hk (Nat.not_lt_zero k)
  | succ n ih =>
    rcases ih with h | ⟨k, hk, h⟩
    · cases ha : s.answerAt n with
      | ack =>
        refine .inl fun k hk => ?_
        rcases Nat.lt_succ_iff_lt_or_eq.1 hk with hk | rfl
        · exact h k hk
        · exact ha
      | nack => exact .inr ⟨n, Nat.lt_succ_self n, h, ha⟩
    · exact .inr ⟨k, Nat.lt_succ_of_lt hk, h⟩

/-! ## A list of bus writes -/

/-- Write the bytes in order, up to the first NACK. -/
def runBytes : List Byte → State → Run
  | [], s => .done s
  | b :: bs, s => (busWrite b s).andThen (runBytes bs)

theorem runBytes_append (as bs : List Byte) (s : State) : runBytes (as ++ bs) s = (runBytes as s).andThen (runBytes bs) := by
  induction as generalizing s with
  | nil => rfl
  | cons a as ih =>
    simp only [List.cons_append, runBytes, Run.andThen_assoc]
    congr 1
    funext t
    exact ih t

@[simp] theorem State.afterBytes_nil (s : State) : s.afterBytes [] = s := by simp [State.afterBytes, ackedWrites]

theorem State.afterBytes_append (s : State) (as bs : List Byte) : (s.afterBytes as).afterBytes bs = s.afterBytes (as ++ bs) := by
  simp [State.afterBytes, ackedWrites, List.append_assoc, Nat.add_assoc]

theorem State.written_eq_afterBytes {s : State} (h : s.answerAt 0 = .ack) (b : Byte) : s.written b = s.afterBytes [b] := by
  simp [State.written, State.afterBytes, ackedWrites, h]

theorem State.afterBytes_afterNack (s : State) (as bs : List Byte) (k : Nat) :
    (s.afterBytes as).afterNack bs k = s.afterNack (as ++ bs) (as.length + k) := by
  unfold State.afterNack
  simp [ackedWrites, List.append_assoc, Nat.add_assoc, List.getElem?_append_right, List.take_append]

/-- All ACKed: every byte is written. -/
theorem runBytes_of_acks (bs : List Byte) {s : State} (h : s.acks bs.length) : runBytes bs s = .done (s.afterBytes bs) := by
  induction bs generalizing s with
  | nil => simp [runBytes]
  | cons b bs ih =>
    have h0 : s.answerAt 0 = .ack := h 0 (by simp)
    have hw := State.written_eq_afterBytes h0 b
    have ht : (s.afterBytes [b]).acks bs.length := State.acks_afterBytes (State.acks_mono h (by simp; omega))
    simp only [runBytes, busWrite, h0, Run.andThen_done, hw, ih ht, State.afterBytes_append, List.singleton_append]

/-- The `k`-th NACKed: the bytes before it are written, it is recorded, and TransportError is raised (41_bit_banger.md R147). -/
theorem runBytes_of_nacksAt (bs : List Byte) {s : State} {k : Nat} (hk : k < bs.length) (h : s.nacksAt k) :
    runBytes bs s = .raised .transport (s.afterNack bs k) := by
  induction bs generalizing s k with
  | nil => simp at hk
  | cons b bs ih =>
    cases k with
    | zero =>
      have h0 : s.answerAt 0 = .nack := h.2
      simp [runBytes, busWrite, h0, State.written, State.afterNack, ackedWrites]
    | succ k =>
      have h0 : s.answerAt 0 = .ack := h.1 0 (Nat.succ_pos k)
      have hw := State.written_eq_afterBytes h0 b
      have ht : (s.afterBytes [b]).nacksAt k :=
        ⟨State.acks_afterBytes (State.acks_mono h.1 (by simp; omega)), by
          rw [State.answerAt_afterBytes]; simpa [Nat.add_comm] using h.2⟩
      have e := ih (s := s.afterBytes [b]) (k := k) (by simpa using hk) ht
      simp only [runBytes, busWrite, h0, Run.andThen_done, hw, e, State.afterBytes_afterNack, List.singleton_append,
        List.length_singleton, Nat.add_comm 1 k]

/-- Everything a list of bus writes can do. -/
theorem runBytes_cases (bs : List Byte) (s : State) :
    (s.acks bs.length ∧ runBytes bs s = .done (s.afterBytes bs)) ∨
    ∃ k, k < bs.length ∧ s.nacksAt k ∧ runBytes bs s = .raised .transport (s.afterNack bs k) := by
  rcases s.acks_or_nacksAt bs.length with h | ⟨k, hk, h⟩
  · exact .inl ⟨h, runBytes_of_acks bs h⟩
  · exact .inr ⟨k, hk, h, runBytes_of_nacksAt bs hk h⟩

/-! ## The masks of an allowed configuration -/

/-- The masks of an allowed configuration are four different ones of bits 3..0. -/
theorem Config.wf_masks {c : Config} (h : c.wf = true) :
    (c.rsMask = 1 ∨ c.rsMask = 2 ∨ c.rsMask = 4 ∨ c.rsMask = 8) ∧ (c.rwMask = 1 ∨ c.rwMask = 2 ∨ c.rwMask = 4 ∨ c.rwMask = 8) ∧
    (c.enMask = 1 ∨ c.enMask = 2 ∨ c.enMask = 4 ∨ c.enMask = 8) ∧ (c.blMask = 1 ∨ c.blMask = 2 ∨ c.blMask = 4 ∨ c.blMask = 8) ∧
    c.rsMask ≠ c.rwMask ∧ c.rsMask ≠ c.enMask ∧ c.rsMask ≠ c.blMask ∧ c.rwMask ≠ c.enMask ∧ c.rwMask ≠ c.blMask ∧
    c.enMask ≠ c.blMask := by
  simp [Config.wf, List.nodup_cons] at h
  obtain ⟨⟨⟨h1, h2, h3, h4⟩, ⟨n1, n2, n3⟩, ⟨n4, n5⟩, n6⟩, -⟩ := h
  exact ⟨h1, h2, h3, h4, n1, n2, n3, n4, n5, n6⟩

/-- CLEAR_SETTLE of an allowed configuration is at least CLEAR_SETTLE_MIN. -/
theorem Config.wf_settle {c : Config} (h : c.wf = true) : Config.clearSettleMin ≤ c.clearSettle := by
  simp [Config.wf] at h
  exact h.2

theorem Config.default_wf : Config.default.wf = true := by decide

/-- Clearing a mask in a value that has none of its bits changes nothing. -/
theorem byte_and_not_of_and_eq_zero {v m : Byte} (h : v &&& m = 0) : v &&& ~~~m = v := by
  ext i hi
  have hb : (v &&& m)[i] = false := by rw [h]; simp
  simp only [BitVec.getElem_and, BitVec.getElem_not] at *
  revert hb
  cases v[i] <;> cases m[i] <;> simp

/-- Different masks of an allowed configuration have no bit in common, and none has a bit of the data field. -/
theorem Config.mask_disjoint {m n : Byte} (hm : m = 1 ∨ m = 2 ∨ m = 4 ∨ m = 8) (hn : n = 1 ∨ n = 2 ∨ n = 4 ∨ n = 8)
    (h : m ≠ n) : m &&& n = 0 := by
  rcases hm with rfl | rfl | rfl | rfl <;> rcases hn with rfl | rfl | rfl | rfl <;> first | exact absurd rfl h | decide

theorem hiNibble_mask {m : Byte} (hm : m = 1 ∨ m = 2 ∨ m = 4 ∨ m = 8) (b : Byte) : hiNibble b &&& m = 0 := by
  unfold hiNibble
  rw [BitVec.and_assoc]
  rcases hm with rfl | rfl | rfl | rfl <;> simp

theorem loNibble_mask {m : Byte} (hm : m = 1 ∨ m = 2 ∨ m = 4 ∨ m = 8) (b : Byte) : loNibble b &&& m = 0 := by
  unfold loNibble
  rw [BitVec.and_assoc]
  rcases hm with rfl | rfl | rfl | rfl <;> simp

/-- AND distributes over OR, on the right. -/
theorem byte_or_and_right (a b m : Byte) : (a ||| b) &&& m = (a &&& m) ||| (b &&& m) := by
  ext i hi
  simp [Bool.and_or_distrib_right]

theorem modeBit_and {c : Config} {m : Byte} (h : c.rsMask &&& m = 0) (md : Mode) : modeBit c md &&& m = 0 := by
  cases md
  · simp [modeBit]
  · exact h

theorem blBits_and {c : Config} {m : Byte} (h : c.blMask &&& m = 0) (bl : Bool) : blBits c bl &&& m = 0 := by
  cases bl
  · simp [blBits]
  · exact h

/-! ## `write4bits` and `send` are their closed forms -/

/-- `write4bits` is the three writes of R142 when its operand has no EN bit. -/
theorem write4bits_eq {x : Byte} {s : State} (h : s.cfg.wf = true) (hx : x &&& s.cfg.enMask = 0) :
    write4bits x s = runBytes (nibbleBytes s.cfg s.bl x) s := by
  obtain ⟨-, -, he, hb, -, -, -, -, -, hne⟩ := Config.wf_masks h
  have hbl := blBits_and (Config.mask_disjoint hb he hne.symm) s.bl
  have hv : (x ||| blBits s.cfg s.bl) &&& ~~~s.cfg.enMask = x ||| blBits s.cfg s.bl :=
    byte_and_not_of_and_eq_zero (by rw [byte_or_and_right, hx, hbl]; rfl)
  have hd : ∀ (r : Run) (b : Byte), (r.andThen fun s1 => (busWrite b s1).andThen fun s2 => .done s2) = r.andThen (busWrite b) := by
    intro r b
    cases r with
    | done t => simp only [Run.andThen_done]; cases busWrite b t <;> rfl
    | raised e t => rfl
  simp only [write4bits, nibbleBytes, runBytes, hv, Run.andThen_assoc]
  congr 1
  funext s1
  exact (hd _ _).symm

/-- `write4bits` on a data nibble with a mode bit. -/
theorem write4bits_nibble {n : Byte} {m : Mode} {s : State} (h : s.cfg.wf = true)
    (hn : n &&& s.cfg.enMask = 0) :
    write4bits (n ||| modeBit s.cfg m) s = runBytes (nibbleBytes s.cfg s.bl (n ||| modeBit s.cfg m)) s := by
  obtain ⟨hr, -, he, -, -, hre, -, -, -, -⟩ := Config.wf_masks h
  exact write4bits_eq h (by rw [byte_or_and_right, hn, modeBit_and (Config.mask_disjoint hr he hre)]; rfl)

/-- `send` is the six writes of R149. -/
theorem send_eq (b : Byte) (m : Mode) {s : State} (h : s.cfg.wf = true) :
    send b m s = runBytes (sendBytes s.cfg s.bl b m) s := by
  obtain ⟨-, -, he, -⟩ := Config.wf_masks h
  unfold send sendBytes
  rw [write4bits_nibble h (hiNibble_mask he b), runBytes_append]
  rcases runBytes_cases (nibbleBytes s.cfg s.bl (hiNibble b ||| modeBit s.cfg m)) s with ⟨-, e⟩ | ⟨k, -, -, e⟩
  · rw [e, Run.andThen_done, Run.andThen_done]
    exact write4bits_nibble (s := s.afterBytes _) h (loNibble_mask he b)
  · rw [e]; rfl

@[simp] theorem nibbleBytes_length (c : Config) (bl : Bool) (x : Byte) : (nibbleBytes c bl x).length = 3 := rfl

@[simp] theorem sendBytes_length (c : Config) (bl : Bool) (b : Byte) (m : Mode) : (sendBytes c bl b m).length = 6 := rfl

/-- Everything a `send` can do: six writes ACKed, or the first NACK ends it. -/
theorem send_cases (b : Byte) (m : Mode) {s : State} (h : s.cfg.wf = true) :
    (s.acks 6 ∧ send b m s = .done (s.afterBytes (sendBytes s.cfg s.bl b m))) ∨
    ∃ k, k < 6 ∧ s.nacksAt k ∧ send b m s = .raised .transport (s.afterNack (sendBytes s.cfg s.bl b m) k) := by
  rw [send_eq b m h]
  exact runBytes_cases (sendBytes s.cfg s.bl b m) s

theorem send_of_acks (b : Byte) (m : Mode) {s : State} (h : s.cfg.wf = true) (ha : s.acks 6) :
    send b m s = .done (s.afterBytes (sendBytes s.cfg s.bl b m)) := by
  rw [send_eq b m h]
  exact runBytes_of_acks _ ha

theorem send_of_nacksAt (b : Byte) (m : Mode) {s : State} {k : Nat} (h : s.cfg.wf = true) (hk : k < 6) (hn : s.nacksAt k) :
    send b m s = .raised .transport (s.afterNack (sendBytes s.cfg s.bl b m) k) := by
  rw [send_eq b m h]
  exact runBytes_of_nacksAt _ (by simpa using hk) hn

end Sys2Proof.Machine
end

