-- ==== Sys2Proof/Laws/Decode.lean ====
section
/-! SUPPORT. The fields of a packed word are the fields it was packed from. -/

namespace Sys2Proof

@[simp] theorem reqOp_pack (op : BitVec 4) (w : Bool) (z : BitVec 3) (a : Byte) : reqOp (packReq16 op w z a) = op := by
  unfold reqOp packReq16
  ext i hi
  have : i = 0 ∨ i = 1 ∨ i = 2 ∨ i = 3 := by omega
  rcases this with rfl | rfl | rfl | rfl <;> simp

@[simp] theorem reqWrap_pack (op : BitVec 4) (w : Bool) (z : BitVec 3) (a : Byte) : reqWrap (packReq16 op w z a) = w := by
  unfold reqWrap packReq16
  simp

@[simp] theorem reqZ_pack (op : BitVec 4) (w : Bool) (z : BitVec 3) (a : Byte) : reqZ (packReq16 op w z a) = z := by
  unfold reqZ packReq16
  ext i hi
  have : i = 0 ∨ i = 1 ∨ i = 2 := by omega
  rcases this with rfl | rfl | rfl <;> simp

@[simp] theorem reqArg_pack (op : BitVec 4) (w : Bool) (z : BitVec 3) (a : Byte) : reqArg (packReq16 op w z a) = a := by
  unfold reqArg packReq16
  ext i hi
  have : i = 0 ∨ i = 1 ∨ i = 2 ∨ i = 3 ∨ i = 4 ∨ i = 5 ∨ i = 6 ∨ i = 7 := by omega
  rcases this with rfl | rfl | rfl | rfl | rfl | rfl | rfl | rfl <;> simp

@[simp] theorem lcdRs_pack (rs : Bool) (b : Byte) : lcdRs (packLcd rs b) = rs := by
  unfold lcdRs packLcd
  simp

@[simp] theorem lcdByte_pack (rs : Bool) (b : Byte) : lcdByte (packLcd rs b) = b := by
  unfold lcdByte packLcd
  ext i hi
  have : i = 0 ∨ i = 1 ∨ i = 2 ∨ i = 3 ∨ i = 4 ∨ i = 5 ∨ i = 6 ∨ i = 7 := by omega
  rcases this with rfl | rfl | rfl | rfl | rfl | rfl | rfl | rfl <;> simp

/-- A REQ16 word is the packing of its fields. -/
theorem packReq16_fields (w : Req16) : packReq16 (reqOp w) (reqWrap w) (reqZ w) (reqArg w) = w := by
  unfold packReq16 reqOp reqWrap reqZ reqArg
  ext i hi
  have : i = 0 ∨ i = 1 ∨ i = 2 ∨ i = 3 ∨ i = 4 ∨ i = 5 ∨ i = 6 ∨ i = 7 ∨ i = 8 ∨ i = 9 ∨ i = 10 ∨ i = 11 ∨ i = 12 ∨ i = 13 ∨
      i = 14 ∨ i = 15 := by omega
  rcases this with rfl | rfl | rfl | rfl | rfl | rfl | rfl | rfl | rfl | rfl | rfl | rfl | rfl | rfl | rfl | rfl <;> simp

/-- An LCD word is the packing of its fields. -/
theorem packLcd_fields (w : LcdWord) : packLcd (lcdRs w) (lcdByte w) = w := by
  unfold packLcd lcdRs lcdByte
  ext i hi
  have : i = 0 ∨ i = 1 ∨ i = 2 ∨ i = 3 ∨ i = 4 ∨ i = 5 ∨ i = 6 ∨ i = 7 ∨ i = 8 := by omega
  rcases this with rfl | rfl | rfl | rfl | rfl | rfl | rfl | rfl | rfl <;> simp

end Sys2Proof
end

