-- ==== Sys2Proof/Laws/Memory.lean ====
section
/-! SUPPORT. Cells by number: every operation keeps the canonical form; a read after a write. -/

namespace Sys2Proof.Machine

@[simp] theorem Memory.read_nil (blank : Byte) (k : Nat) : Memory.read blank [] k = blank := rfl

/-- Every listed number of a canonical memory's tail lies above its head. -/
theorem Memory.wf_cons {blank : Byte} {a : Nat} {b : Byte} {m : Memory} :
    Memory.wf blank ((a, b) :: m) = true ↔ b ≠ blank ∧ (∀ c ∈ m, a < c.1) ∧ Memory.wf blank m = true := by
  simp [Memory.wf, and_assoc]

/-- A cell below every listed one reads blank. -/
theorem Memory.read_of_lt {blank : Byte} {k : Nat} : ∀ {m : Memory}, (∀ c ∈ m, k < c.1) → Memory.read blank m k = blank
  | [], _ => rfl
  | (a, b) :: m, h => by
    have ha : k < a := h (a, b) (by simp)
    have hm : ∀ c ∈ m, k < c.1 := fun c hc => h c (by simp [hc])
    simp [Memory.read, Nat.ne_of_lt ha, Memory.read_of_lt hm]

/-- The cells a write lists are those listed before and the one written. -/
theorem Memory.mem_write {blank : Byte} {k : Nat} {v : Byte} {c : Host.Cell} :
    ∀ {m : Memory}, c ∈ Memory.write blank m k v → c = (k, v) ∨ c ∈ m
  | [], h => by
    simp only [Memory.write, Memory.put] at h
    split at h
    · cases h
    · left; simpa using h
  | (a, b) :: m, h => by
    simp only [Memory.write, Memory.put] at h
    split at h
    · split at h
      · right; exact h
      · rcases List.mem_cons.1 h with h | h
        · left; exact h
        · right; exact h
    · split at h
      · split at h
        · right; exact List.mem_cons_of_mem _ h
        · rcases List.mem_cons.1 h with h | h
          · left; exact h
          · right; exact List.mem_cons_of_mem _ h
      · rcases List.mem_cons.1 h with h | h
        · right; rw [h]; exact List.mem_cons_self
        · rcases Memory.mem_write h with h | h
          · left; exact h
          · right; exact List.mem_cons_of_mem _ h

theorem Memory.wf_put {blank : Byte} {k : Nat} {v : Byte} {m : Memory} (hm : Memory.wf blank m = true) (hk : ∀ c ∈ m, k < c.1) :
    Memory.wf blank (Memory.put blank k v m) = true := by
  unfold Memory.put
  split
  · exact hm
  · next h => exact Memory.wf_cons.2 ⟨h, hk, hm⟩

/-- A write keeps the canonical form. -/
theorem Memory.wf_write {blank : Byte} {k : Nat} {v : Byte} :
    ∀ {m : Memory}, Memory.wf blank m = true → Memory.wf blank (Memory.write blank m k v) = true
  | [], _ => Memory.wf_put (m := []) rfl (by simp)
  | (a, b) :: m, h => by
    obtain ⟨hb, ha, hm⟩ := Memory.wf_cons.1 h
    simp only [Memory.write]
    split
    · next hk =>
      refine Memory.wf_put h fun c hc => ?_
      rcases List.mem_cons.1 hc with rfl | hc
      · exact hk
      · exact Nat.lt_trans hk (ha c hc)
    · next hk =>
      split
      · next he => subst he; exact Memory.wf_put hm ha
      · next he =>
        refine Memory.wf_cons.2 ⟨hb, fun c hc => ?_, Memory.wf_write hm⟩
        rcases Memory.mem_write hc with rfl | hc
        · show a < k; omega
        · exact ha c hc

/-- Reading the cell just written gives the value written. -/
theorem Memory.read_write_same {blank : Byte} {k : Nat} {v : Byte} :
    ∀ {m : Memory}, Memory.wf blank m = true → Memory.read blank (Memory.write blank m k v) k = v
  | [], _ => by simp only [Memory.write, Memory.put]; split <;> simp_all [Memory.read]
  | (a, b) :: m, h => by
    obtain ⟨-, ha, hm⟩ := Memory.wf_cons.1 h
    simp only [Memory.write, Memory.put]
    split
    · next hk =>
      split
      · next hv =>
        rw [hv]
        refine Memory.read_of_lt fun c hc => ?_
        rcases List.mem_cons.1 hc with rfl | hc
        · exact hk
        · exact Nat.lt_trans hk (ha c hc)
      · simp [Memory.read]
    · split
      · next he =>
        subst he
        split
        · next hv => rw [hv]; exact Memory.read_of_lt ha
        · simp [Memory.read]
      · next he => simp [Memory.read, he, Memory.read_write_same hm]

/-- Reading any other cell gives what it gave before. -/
theorem Memory.read_write_ne {blank : Byte} {k j : Nat} {v : Byte} (hjk : j ≠ k) :
    ∀ (m : Memory), Memory.read blank (Memory.write blank m k v) j = Memory.read blank m j
  | [] => by simp only [Memory.write, Memory.put]; split <;> simp [Memory.read, hjk]
  | (a, b) :: m => by
    simp only [Memory.write, Memory.put]
    split
    · split
      · rfl
      · simp [Memory.read, hjk]
    · split
      · next he =>
        subst he
        split <;> simp [Memory.read, hjk]
      · simp only [Memory.read]
        split
        · rfl
        · exact Memory.read_write_ne hjk m

/-- The memory after reset is canonical. -/
theorem reset_grid_wf : Memory.wf State.reset.cfg.space State.reset.grid = true := rfl

/-- A coordinate is valid when its row is in 0..3 and its column in 0..19 (10_state.md R32 (a)). -/
theorem Coord.valid_iff (x : Coord) : x.valid = true ↔ x.row < 4 ∧ x.col < 20 := by
  unfold Coord.valid Config.rows Config.cols
  rw [Bool.and_eq_true, decide_eq_true_iff, decide_eq_true_iff]

/-- Different valid cells are held under different numbers (10_state.md R30). -/
theorem Coord.cell_inj {x y : Coord} (hx : x.valid = true) (hy : y.valid = true) (h : x.cell = y.cell) : x = y := by
  obtain ⟨r, c⟩ := x
  obtain ⟨q, d⟩ := y
  rw [Coord.valid_iff] at hx hy
  simp only [Coord.cell, Config.cols] at h hx hy
  have hr : r = q := by omega
  have hc : c = d := by omega
  rw [hr, hc]

/-- A valid cell's number is below 80 (R30, R32 (c)). -/
theorem Coord.cell_lt {x : Coord} (hx : x.valid = true) : x.cell < Config.cells := by
  rw [Coord.valid_iff] at hx
  simp only [Coord.cell, Config.cols, Config.cells]
  omega

end Sys2Proof.Machine
end

