-- ==== Sys2Proof/Laws/PerInstr.lean ====
section
/-! SUPPORT. Per instruction: its encoding has the fixed bits of its own row of spec/opcode_table.json. -/

namespace Sys2Proof.Laws.EncodingHasRowBits

/-- The word an instruction encodes to matches the row of its mnemonic, in the rows of its format. -/
def Statement (i : Instr) : Prop :=
  i.wf = true → ∃ r ∈ (encode i).rows, r.mnemonic = i.mnemonic ∧ r.matchesWord (encode i).wordNat = true

/-- The row at position `n` of the table for the code's format, shown by computation. -/
theorem of_row {i : Instr} (n : Nat) (r : OpcodeRow) (hr : (encode i).rows[n]? = some r) (hm : r.mnemonic = i.mnemonic)
    (hw : r.matchesWord (encode i).wordNat = true) : Statement i :=
  fun _ => ⟨r, List.mem_of_getElem? hr, hm, hw⟩

theorem init (a : Byte) : Statement (.init a) := of_row 0 _ rfl rfl (by revert a; decide)
theorem setRow (w : Bool) (a : Byte) (text : List Byte) : Statement (.setRow w a text) :=
  of_row 1 _ rfl rfl (by
    show OpcodeRow.matchesWord _ (packReq16 0x1 w 0 a).toNat = true
    revert w a; decide)
theorem refresh : Statement .refresh := of_row 2 _ rfl rfl (by decide)
theorem clear : Statement .clear := of_row 3 _ rfl rfl (by decide)
theorem home : Statement .home := of_row 4 _ rfl rfl (by decide)
theorem setBacklight (e : Bool) : Statement (.setBacklight e) := of_row 5 _ rfl rfl (by revert e; decide)
theorem setEntryMode (p : Byte) : Statement (.setEntryMode p) := of_row 6 _ rfl rfl (by revert p; decide)
theorem setDisplayControl (p : Byte) : Statement (.setDisplayControl p) := of_row 7 _ rfl rfl (by revert p; decide)
theorem setShift (p : Byte) : Statement (.setShift p) := of_row 8 _ rfl rfl (by revert p; decide)
theorem setFunction (p : Byte) : Statement (.setFunction p) := of_row 9 _ rfl rfl (by revert p; decide)
theorem setCgramAddr (p : Byte) : Statement (.setCgramAddr p) := of_row 10 _ rfl rfl (by revert p; decide)
theorem writeData (d : Byte) : Statement (.writeData d) := of_row 11 _ rfl rfl (by revert d; decide)

/-- The top two bits of a reserved op code are set. -/
theorem reservedOp_top : ∀ op : BitVec 4, reservedOp op = true → op &&& 0xC = 0xC := by decide

theorem reserved (op : BitVec 4) (w : Bool) (z : BitVec 3) (a : Byte) (payload : List Byte) :
    Statement (.reserved op w z a payload) := by
  intro h
  have ht := reservedOp_top op h
  have h3 : op[3] = true := by have := congrArg (fun v : BitVec 4 => v[3]) ht; simpa using this
  have h2 : op[2] = true := by have := congrArg (fun v : BitVec 4 => v[2]) ht; simpa using this
  have hw : packReq16 op w z a &&& 0xC000#16 = 0xC000#16 := by
    unfold packReq16
    ext i hi
    have : i = 0 ∨ i = 1 ∨ i = 2 ∨ i = 3 ∨ i = 4 ∨ i = 5 ∨ i = 6 ∨ i = 7 ∨ i = 8 ∨ i = 9 ∨ i = 10 ∨ i = 11 ∨ i = 12 ∨ i = 13 ∨
        i = 14 ∨ i = 15 := by omega
    rcases this with rfl | rfl | rfl | rfl | rfl | rfl | rfl | rfl | rfl | rfl | rfl | rfl | rfl | rfl | rfl | rfl <;>
      simp [h2, h3]
  have hn : (packReq16 op w z a).toNat &&& 0xC000 = 0xC000 := by
    have := congrArg BitVec.toNat hw
    simpa using this
  exact of_row 12 _ rfl rfl (by
    show ((packReq16 op w z a).toNat &&& 0xC000 == 0xC000) = true
    rw [hn]; rfl) h

theorem lcdClear : Statement .lcdClear := of_row 0 _ rfl rfl (by decide)
theorem lcdHome (u : Bool) : Statement (.lcdHome u) := of_row 1 _ rfl rfl (by revert u; decide)
theorem lcdEntryMode (i s : Bool) : Statement (.lcdEntryMode i s) := of_row 2 _ rfl rfl (by revert i s; decide)
theorem lcdDisplayControl (d c b : Bool) : Statement (.lcdDisplayControl d c b) :=
  of_row 3 _ rfl rfl (by revert d c b; decide)
theorem lcdShift (t r : Bool) (u : BitVec 2) : Statement (.lcdShift t r u) := of_row 4 _ rfl rfl (by revert t r u; decide)
theorem lcdFunctionSet (l n f : Bool) (u : BitVec 2) : Statement (.lcdFunctionSet l n f u) :=
  of_row 5 _ rfl rfl (by revert l n f u; decide)
theorem lcdSetCgramAddr (a : BitVec 6) : Statement (.lcdSetCgramAddr a) := of_row 6 _ rfl rfl (by revert a; decide)
theorem lcdSetDdramAddr (a : BitVec 7) : Statement (.lcdSetDdramAddr a) := of_row 7 _ rfl rfl (by revert a; decide)
theorem lcdWriteData (d : Byte) : Statement (.lcdWriteData d) := of_row 8 _ rfl rfl (by revert d; decide)
theorem lcdNull : Statement .lcdNull := of_row 9 _ rfl rfl (by decide)

end Sys2Proof.Laws.EncodingHasRowBits
end

