-- ==== Sys2Proof/Laws/Receiver.lean ====
section
/-! SUPPORT. The reference receiver: the fields of its updates, the address it keeps, and that a lost receiver stays lost. -/

namespace Sys2Proof.Machine

@[simp] theorem Receiver.lose_addr (r : Receiver) : r.lose.addr = r.addr := rfl
@[simp] theorem Receiver.lose_lastEn (r : Receiver) : r.lose.lastEn = r.lastEn := rfl
@[simp] theorem Receiver.lose_backlight (r : Receiver) : r.lose.backlight = r.backlight := rfl
@[simp] theorem Receiver.lose_lost (r : Receiver) : r.lose.lost = true := rfl
@[simp] theorem Receiver.lose_seen (r : Receiver) : r.lose.seen = r.seen := rfl

@[simp] theorem Receiver.elapse_addr (c : Config) (k : DelayName) (r : Receiver) : (r.elapse c k).addr = r.addr := rfl
@[simp] theorem Receiver.elapse_lost (c : Config) (k : DelayName) (r : Receiver) : (r.elapse c k).lost = r.lost := rfl
@[simp] theorem Receiver.elapse_settle (c : Config) (k : DelayName) (r : Receiver) :
    (r.elapse c k).settle = r.settle - c.delayTime k := rfl

/-- A delay changes nothing at a receiver that has settled. -/
theorem Receiver.elapse_settled (c : Config) (k : DelayName) {r : Receiver} (h : r.settle = 0) : r.elapse c k = r := by
  unfold Receiver.elapse
  rw [h, Nat.zero_sub, ← h]

/-- In an allowed configuration a settle marker is long enough for a clear and for a return home (00_scope.md R9). -/
theorem Receiver.elapse_marker {c : Config} (hc : c.wf = true) {k : DelayName} (hk : k = .clearSettle ∨ k = .homeSettle) {r : Receiver}
    (h : r.settle ≤ Config.clearSettleMin) : (r.elapse c k).settle = 0 := by
  have hc' : Config.clearSettleMin ≤ c.clearSettle := by
    simp only [Config.wf, Bool.and_eq_true, decide_eq_true_eq] at hc
    exact hc.2
  rcases hk with rfl | rfl <;> simp only [elapse_settle, Config.delayTime] <;> omega

/-- A command that comes before a clear or return home has settled loses the receiver (20_memory.md R76). -/
theorem Receiver.latch_unsettled {r : Receiver} (h : r.settle ≠ 0) (nib : Byte) (rs : Bool) : r.latch nib rs = r.lose := by
  simp [Receiver.latch, h]

/-- Clear and return home are the words that must settle; no other word starts a wait. -/
theorem Receiver.execute_settle (r : Receiver) (i : Instr) (h : i ≠ .lcdClear) (h' : ∀ u, i ≠ .lcdHome u) :
    (r.execute i).settle = r.settle := by
  cases i <;> simp only [Receiver.execute]
  case lcdShift t _ _ => cases t <;> rfl
  case lcdWriteData d => unfold Receiver.storeData; cases r.pointer <;> cases r.shiftEnable <;> rfl
  case lcdClear => exact absurd rfl h
  case lcdHome u => exact absurd rfl (h' u)

/-- Switching the display off or on leaves what the mirror is held against, in the DDRAM and on the screen (44_passthrough_ops.md R212). -/
theorem Receiver.execute_displayControl (r : Receiver) (d c b : Bool) (x : Coord) :
    (r.execute (.lcdDisplayControl d c b)).holds x = r.holds x ∧ (r.execute (.lcdDisplayControl d c b)).shows x = r.shows x :=
  ⟨rfl, rfl⟩

@[simp] theorem Receiver.movePicture_addr (r : Receiver) : r.movePicture.addr = r.addr := rfl
@[simp] theorem Receiver.movePicture_lost (r : Receiver) : r.movePicture.lost = r.lost := rfl
@[simp] theorem Receiver.movePicture_ddram (r : Receiver) : r.movePicture.ddram = r.ddram := rfl
@[simp] theorem Receiver.movePicture_pointer (r : Receiver) : r.movePicture.pointer = r.pointer := rfl
@[simp] theorem Receiver.movePicture_fourBit (r : Receiver) : r.movePicture.fourBit = r.fourBit := rfl
@[simp] theorem Receiver.movePicture_highHalf (r : Receiver) : r.movePicture.highHalf = r.highHalf := rfl
@[simp] theorem Receiver.movePicture_settle (r : Receiver) : r.movePicture.settle = r.settle := rfl
@[simp] theorem Receiver.movePicture_lastEn (r : Receiver) : r.movePicture.lastEn = r.lastEn := rfl

/-- A data byte with the pointer in DDRAM: the cell is written, and only shift-enable can move the picture. -/
theorem Receiver.storeData_ddram {r : Receiver} {a : BitVec 7} (h : r.pointer = .ddram a) (d : Byte) :
    (r.storeData d).ddram = Memory.write receiverBlank r.ddram a.toNat d ∧
    (r.shiftEnable = false → (r.storeData d).fourRow = r.fourRow ∧ (r.storeData d).inPlace = r.inPlace) := by
  unfold Receiver.storeData
  cases hs : r.shiftEnable <;> simp [h]

/-- An instruction word changes neither the address, the lines nor the link. -/
theorem Receiver.execute_frame (r : Receiver) (i : Instr) :
    (r.execute i).addr = r.addr ∧ (r.execute i).lastEn = r.lastEn ∧ (r.execute i).backlight = r.backlight ∧
    (r.execute i).lost = r.lost ∧ (r.execute i).seen = r.seen := by
  cases i <;> simp only [Receiver.execute, and_self]
  case lcdShift t _ _ => cases t <;> simp [Receiver.movePicture]
  case lcdWriteData d =>
    unfold Receiver.storeData
    cases r.pointer <;> cases r.shiftEnable <;> simp [Receiver.movePicture]

/-- A byte on the lines never changes the address, and loses the receiver only before it has settled. -/
theorem Receiver.takeByte_frame (c : Config) (r : Receiver) (b : Byte) :
    (r.takeByte c b).addr = r.addr ∧ (r.settle = 0 → (r.takeByte c b).lost = r.lost) := by
  unfold Receiver.takeByte Receiver.latch
  simp only
  repeat' split
  all_goals simp_all [Receiver.execute_frame]

/-- Everything an event can do: nothing, time passing, the byte taken at a receiver not lost yet, or some receiver of the same address lost. -/
theorem Receiver.observe_cases (c : Config) (r : Receiver) (e : Event) :
    r.observe c e = r ∨ (∃ k, e = .delay k ∧ r.observe c e = r.elapse c k) ∨
    (r.lost = false ∧ ∃ b, e = .write r.addr b .ack ∧ r.observe c e = r.takeByte c b) ∨
    ∃ q : Receiver, q.addr = r.addr ∧ r.observe c e = q.lose := by
  cases e with
  | delay k => exact .inr (.inl ⟨k, rfl, rfl⟩)
  | write dev b a =>
    by_cases h : dev = r.addr
    · subst h
      cases a with
      | ack =>
        cases hl : r.lost
        · exact .inr (.inr (.inl ⟨rfl, b, rfl, by simp [Receiver.observe, hl]⟩))
        · exact .inr (.inr (.inr ⟨r.takeByte c b, (Receiver.takeByte_frame c r b).1, by simp [Receiver.observe, hl]⟩))
      | nack =>
        refine .inr (.inr (.inr
          ⟨if Config.nackedByteArrives r.seen then r.takeByte c b else { r with seen := r.seen + 1 }, ?_, ?_⟩))
        · split
          · exact (Receiver.takeByte_frame c r b).1
          · rfl
        · simp [Receiver.observe]
    · exact .inl (by simp [Receiver.observe, h])

/-- No event changes the receiver's address. -/
@[simp] theorem Receiver.observe_addr (c : Config) (r : Receiver) (e : Event) : (r.observe c e).addr = r.addr := by
  rcases Receiver.observe_cases c r e with h | ⟨k, -, h⟩ | ⟨-, b, -, h⟩ | ⟨q, hq, h⟩ <;> rw [h]
  · rfl
  · exact (Receiver.takeByte_frame c r b).1
  · exact hq

/-- Once lost, the receiver is brought back by no event (70_reset_and_hazards.md R267, U5, U8). -/
theorem Receiver.observe_lost (c : Config) {r : Receiver} (h : r.lost = true) (e : Event) : (r.observe c e).lost = true := by
  rcases Receiver.observe_cases c r e with h' | ⟨k, -, h'⟩ | ⟨hl, -⟩ | ⟨q, -, h'⟩
  · rw [h', h]
  · rw [h']; exact h
  · rw [h] at hl; cases hl
  · rw [h']; rfl

theorem Receiver.run_cons (c : Config) (r : Receiver) (e : Event) (es : List Event) : r.run c (e :: es) = (r.observe c e).run c es := rfl

theorem Receiver.run_append (c : Config) (r : Receiver) (a b : List Event) : r.run c (a ++ b) = (r.run c a).run c b := by
  simp [Receiver.run, List.foldl_append]

theorem Receiver.run_lost (c : Config) {r : Receiver} (h : r.lost = true) (es : List Event) : (r.run c es).lost = true := by
  induction es generalizing r with
  | nil => exact h
  | cons e es ih => exact ih (Receiver.observe_lost c h e)

/-- A NACKed write to it loses the receiver (60_exceptions.md R235). -/
theorem Receiver.observe_nack (c : Config) (r : Receiver) (b : Byte) : (r.observe c (.write r.addr b .nack)).lost = true := by
  simp [Receiver.observe]

end Sys2Proof.Machine
end

