-- ==== Sys2Proof/Laws/Request.lean ====
section
/-! SUPPORT. The frame of every request: its pre-checks, its end, and what a request that sends one byte can do. -/

namespace Sys2Proof.Machine

@[simp] theorem State.takeError_refuse (s : State) (r : Reason) : s.takeError (.refuse r) = s.reply (.refused r) := rfl

@[simp] theorem State.takeError_transport (s : State) : s.takeError .transport = s.transportFailed := rfl

@[simp] theorem State.takeError_coordinate (s : State) (row : Nat) (col : Option Nat) :
    s.takeError (.coordinate row col) = { s with halted := true, replies := s.replies ++ [.invalidCoordinate row col] } := rfl

/-- Not halted and READY: no pre-check refuses (60_exceptions.md R232). -/
theorem State.gate_of_accepts {s : State} (h : s.accepts) (needsReady : Bool) : s.gate needsReady = none := by
  simp [State.gate, h.1, h.2]

/-- Not halted: a request that does not need READY passes (42_initialization.md R160). -/
theorem State.gate_false {s : State} (h : s.halted = false) : s.gate false = none := by
  simp [State.gate, h]

/-- Everything the pre-checks can answer. -/
theorem State.gate_cases (s : State) (needsReady : Bool) :
    (s.halted = true ∧ s.gate needsReady = some .halted) ∨
    (s.halted = false ∧ needsReady = true ∧ s.initState ≠ .ready ∧ s.gate needsReady = some .notReady) ∨
    (s.halted = false ∧ (needsReady = true → s.initState = .ready) ∧ s.gate needsReady = none) := by
  cases hh : s.halted
  · by_cases hr : s.initState = .ready
    · exact .inr (.inr ⟨rfl, fun _ => hr, by simp [State.gate, hh, hr]⟩)
    · cases needsReady
      · exact .inr (.inr ⟨rfl, fun h => (by simp at h), by simp [State.gate, hh]⟩)
      · exact .inr (.inl ⟨rfl, rfl, hr, by simp [State.gate, hh, hr]⟩)
  · exact .inl ⟨rfl, by simp [State.gate, hh]⟩

theorem runRequest_of_gate_none {needsReady : Bool} {body : State → Run} {s : State} (h : s.gate needsReady = none) :
    runRequest needsReady body s = (body s).finish := by
  simp [runRequest, h]

theorem runRequest_of_gate_some {needsReady : Bool} {body : State → Run} {s : State} {r : Reason} (h : s.gate needsReady = some r) :
    runRequest needsReady body s = s.reply (.refused r) := by
  simp [runRequest, h]

/-- Everything a request can do: refused by a pre-check, or its body run to its end or its first error. -/
theorem runRequest_cases (needsReady : Bool) (body : State → Run) (s : State) :
    (∃ r, (r = .halted ∨ r = .notReady) ∧ runRequest needsReady body s = s.reply (.refused r)) ∨
    (s.halted = false ∧ (needsReady = true → s.initState = .ready) ∧ runRequest needsReady body s = (body s).finish) := by
  rcases s.gate_cases needsReady with ⟨-, h⟩ | ⟨-, -, -, h⟩ | ⟨hh, hr, h⟩
  · exact .inl ⟨_, .inl rfl, runRequest_of_gate_some h⟩
  · exact .inl ⟨_, .inr rfl, runRequest_of_gate_some h⟩
  · exact .inr ⟨hh, hr, runRequest_of_gate_none h⟩

@[simp] theorem Run.finish_done (s : State) : (Run.done s).finish = s.reply .ok := rfl

@[simp] theorem Run.finish_raised (e : Raise) (s : State) : (Run.raised e s).finish = s.takeError e := rfl

/-- Everything a request that sends one byte can do: refused, completed with six writes, or ended at its first NACK. -/
theorem runRequest_send_cases (b : Byte) (m : Mode) {s : State} (h : s.cfg.wf = true) :
    (∃ r, runRequest true (send b m) s = s.reply (.refused r)) ∨
    (s.accepts ∧ s.acks 6 ∧ runRequest true (send b m) s = s.afterSend b m) ∨
    (s.accepts ∧ ∃ k, k < 6 ∧ s.nacksAt k ∧ runRequest true (send b m) s = s.afterSendFailed b m k) := by
  rcases runRequest_cases true (send b m) s with ⟨r, -, e⟩ | ⟨hh, hr, e⟩
  · exact .inl ⟨r, e⟩
  · rcases send_cases b m h with ⟨ha, hs⟩ | ⟨k, hk, hn, hs⟩
    · exact .inr (.inl ⟨⟨hh, hr rfl⟩, ha, by rw [e, hs]; rfl⟩)
    · exact .inr (.inr ⟨⟨hh, hr rfl⟩, k, hk, hn, by rw [e, hs]; rfl⟩)

/-- A request refused for its encoding changes nothing but its status (30_encoding.md R94, 60_exceptions.md R233). -/
theorem refuseEncoding_cases (r : Reason) (s : State) :
    (s.halted = true ∧ refuseEncoding r s = s.reply (.refused .halted)) ∨
    (s.halted = false ∧ refuseEncoding r s = s.reply (.refused r)) := by
  cases h : s.halted <;> simp [refuseEncoding, h]

end Sys2Proof.Machine
end

