-- ==== Sys2Proof/Tests/Slice0.lean ====
section
/-! SUPPORT. Tests of single steps against spec/95_test_vectors.md, decoding of words written out from the spec's encodings, the
well-formedness smoke tests, and a witness for the hypotheses of every statement. -/

namespace Sys2Proof.Tests

open Sys2Proof Sys2Proof.Machine

/-! ## Small states -/

/-- "After INIT" of spec/95_test_vectors.md, with the transport's coming answers. -/
def ready (answers : List Answer) : State := { State.reset with initState := .ready, devAddr := 0x27, answers := answers }

/-- All `n` answers ACK. -/
def acks (n : Nat) : List Answer := List.replicate n .ack

/-- `k` ACKs, then a NACK. -/
def nackAt (k : Nat) : List Answer := acks k ++ [.nack]

/-- The state after vector TM1: SET_ROW 0, "Hi". -/
def hi (answers : List Answer) : State :=
  { ready answers with grid := [(0, 0x48), (1, 0x69)], dirty := [⟨0, 0⟩, ⟨0, 1⟩] }

/-- A field of the next state. -/
def field {α : Type} (f : State → α) : Outcome → Option α
  | .next t => some (f t)
  | .fault e => nomatch e
  | .refused _ => none

/-- The bytes on the bus, a NACKed one with `false`. -/
def busOf (t : State) : List (Byte × Bool) :=
  t.trace.filterMap fun e => match e with
    | .write _ b a => some (b, decide (a = .ack))
    | .delay _ => none

/-- ACKed bytes, in `busOf`'s form. -/
def sent (bs : List Byte) : List (Byte × Bool) := bs.map fun b => (b, true)

/-- The status word of the last reply (30_encoding.md R100). -/
def statusWord (t : State) : Option Byte := t.replies.getLast?.map Status.word

/-! ## Well-formedness smoke -/

theorem test_wf_reserved_op_low_refused : (Instr.reserved 0x0 false 0 0 []).wf = false := by decide
theorem test_wf_reserved_op_b_refused : (Instr.reserved 0xB true 7 0xFF [1]).wf = false := by decide
theorem test_wf_reserved_op_c_accepted : (Instr.reserved 0xC true 7 0xFF [1]).wf = true := by decide
theorem test_documented_refuses_row_four : (Instr.setRow false 4 []).documented = false := by decide
theorem test_documented_refuses_entry_bit : (Instr.setEntryMode 0x80).documented = false := by decide

/-! ## Decoding: words written out from 30_encoding.md R81, R83, R84 and R88 -/

theorem test_decode_init : decode (.request 0b0000_0000_0010_0111 []) = .instr (.init 0x27) := by decide
theorem test_decode_setRow : decode (.request 0b0001_0000_0000_0011 [0x48]) = .instr (.setRow false 3 [0x48]) := by decide
theorem test_decode_setRow_wrap : decode (.request 0b0001_1000_0000_0111 []) = .instr (.setRow true 7 []) := by decide
theorem test_decode_refresh : decode (.request 0b0010_0000_0000_0000 []) = .instr .refresh := by decide
theorem test_decode_clear : decode (.request 0b0011_0000_0000_0000 []) = .instr .clear := by decide
theorem test_decode_home : decode (.request 0b0100_0000_0000_0000 []) = .instr .home := by decide
theorem test_decode_setBacklight : decode (.request 0b0101_0000_0000_0001 []) = .instr (.setBacklight true) := by decide
theorem test_decode_setEntryMode : decode (.request 0b0110_0000_1000_0010 []) = .instr (.setEntryMode 0x82) := by decide
theorem test_decode_setDisplayControl : decode (.request 0b0111_0000_0000_0111 []) = .instr (.setDisplayControl 0x07) := by decide
theorem test_decode_setShift : decode (.request 0b1000_0000_0000_1100 []) = .instr (.setShift 0x0C) := by decide
theorem test_decode_setFunction : decode (.request 0b1001_0000_0000_1000 []) = .instr (.setFunction 0x08) := by decide
theorem test_decode_setCgramAddr : decode (.request 0b1010_0000_0011_1111 []) = .instr (.setCgramAddr 0x3F) := by decide
theorem test_decode_writeData : decode (.request 0b1011_0000_0001_1111 []) = .instr (.writeData 0x1F) := by decide
theorem test_decode_reserved : decode (.request 0b1101_1101_0000_0010 [7]) = .instr (.reserved 0xD true 5 2 [7]) := by decide
theorem test_decode_lcdClear : decode (.lcd 0b0_0000_0001) = .instr .lcdClear := by decide
theorem test_decode_lcdHome : decode (.lcd 0b0_0000_0011) = .instr (.lcdHome true) := by decide
theorem test_decode_lcdEntryMode : decode (.lcd 0b0_0000_0110) = .instr (.lcdEntryMode true false) := by decide
theorem test_decode_lcdDisplayControl : decode (.lcd 0b0_0000_1101) = .instr (.lcdDisplayControl true false true) := by decide
theorem test_decode_lcdShift : decode (.lcd 0b0_0001_1010) = .instr (.lcdShift true false 2) := by decide
theorem test_decode_lcdFunctionSet : decode (.lcd 0b0_0010_1001) = .instr (.lcdFunctionSet false true false 1) := by decide
theorem test_decode_lcdSetCgramAddr : decode (.lcd 0b0_0110_0001) = .instr (.lcdSetCgramAddr 0x21) := by decide
theorem test_decode_lcdSetDdramAddr : decode (.lcd 0b0_1110_0111) = .instr (.lcdSetDdramAddr 0x67) := by decide
theorem test_decode_lcdWriteData : decode (.lcd 0b1_1000_0001) = .instr (.lcdWriteData 0x81) := by decide
theorem test_decode_lcdNull : decode (.lcd 0b0_0000_0000) = .instr .lcdNull := by decide

/-- R94: z, w, payload, argument and e-bit violations (vectors TI7, TX3, TX5, TC4, TK4). -/
theorem test_decode_rejects :
    decode (.request 0x0127 []) = .rejected .reservedField ∧ decode (.request 0x2800 []) = .rejected .reservedField ∧
    decode (.request 0xB01F [0]) = .rejected .reservedField ∧ decode (.request 0x3001 []) = .rejected .reservedField ∧
    decode (.request 0x5002 []) = .rejected .reservedField := by decide

/-- A table word's first payload byte is the least significant one above bit 15. -/
theorem test_table_word_payload : decodeTableWord 32 0x69481000 = some (.setRow false 0 [0x48, 0x69]) := by decide
theorem test_table_word_lcd : decodeTableWord 9 0x1FF = some (.lcdWriteData 0xFF) := by decide

/-! ## Encoder and serialiser (vectors TE and TB) -/

/-- TE3 to TE19. -/
theorem test_encoder_vectors :
    encEntry .default 0x03 = 0x07 ∧ encEntry .default 0x80 = 0x84 ∧ encDispctl .default 0x08 = 0x08 ∧ encShift .default 0x0C = 0x1C ∧
    encFunction .default 0x1C = 0x3C ∧ encCgram .default 0x3F = 0x7F ∧ encCgram .default 0x80 = 0xC0 ∧
    encDdram .default (ddramOperand ⟨3, 19⟩) = 0xE7 ∧ encDdram .default (ddramOperand ⟨2, 0⟩) = 0x94 ∧ encNull = 0x00 := by decide

/-- TB1, TB6 with the backlight off, TB10a. -/
theorem test_send_vectors :
    sendBytes .default true 0x41 .data = [0x49, 0x4D, 0x49, 0x19, 0x1D, 0x19] ∧
    sendBytes .default false 0xE7 .cmd = [0xE0, 0xE4, 0xE0, 0x70, 0x74, 0x70] ∧
    sendBytes .default false 0x00 .data = [0x01, 0x05, 0x01, 0x01, 0x05, 0x01] := by decide

/-! ## Single requests (vectors TI, TM, TR, TC, TH, TK, TX) -/

/-- TI1: the trace, and the state at its end. -/
theorem test_init_trace :
    field (fun t => t.trace) (exec (.init 0x27) { State.reset with answers := acks 18 }) =
      some ([.delay .powerOnWait] ++ ackedWrites 0x27 [0x08, 0x0C, 0x08] ++ [.delay .initNibbleDelay] ++
        ackedWrites 0x27 [0x28, 0x2C, 0x28] ++ [.delay .initNibbleDelay] ++
        ackedWrites 0x27 [0x08, 0x0C, 0x08, 0x18, 0x1C, 0x18] ++ [.delay .clearSettle] ++
        ackedWrites 0x27 [0x08, 0x0C, 0x08, 0xC8, 0xCC, 0xC8]) := by decide

/-- TI3: a NACK at write 5. -/
theorem test_init_nack :
    field (fun t => (busOf t, t.initState, t.linkUnknown, t.devAddr)) (exec (.init 0x27) { State.reset with answers := nackAt 4 }) =
      some (sent [0x08, 0x0C, 0x08, 0x28] ++ [(0x2C, false)], .forcing, true, 0x27) := by decide

/-- TM2: the last column of the last row. -/
theorem test_setRow_last_cell :
    field (fun t => (t.cellAt ⟨3, 19⟩, t.dirty)) (exec (.setRow false 3 (List.replicate 19 0x20 ++ [0x5A])) (ready [])) =
      some (0x5A, [⟨3, 19⟩]) := by decide

/-- S3 of the source's examples: the text is cut to its first 20 codes. -/
theorem test_normalize_cuts :
    (asciiCodes "this text is over twenty chars".toList).map (normalizeText 0x20) = asciiCodes "this text is over tw".toList := by decide

/-- TM10 and TX12: the row is checked after the wrap flag. -/
theorem test_setRow_row_and_wrap :
    field (fun t => (statusWord t, t.halted)) (exec (.setRow false 4 [0x78]) (ready [])) = some (some 0x03, true) ∧
    field (fun t => (statusWord t, t.halted)) (exec (.setRow true 7 []) (ready [])) = some (some 0x16, false) := by decide

/-- TR1. -/
theorem test_refresh_two_cells :
    field (fun t => (busOf t, t.dirty)) (exec .refresh (hi (acks 24))) =
      some (sent [0x88, 0x8C, 0x88, 0x08, 0x0C, 0x08, 0x49, 0x4D, 0x49, 0x89, 0x8D, 0x89,
        0x88, 0x8C, 0x88, 0x18, 0x1C, 0x18, 0x69, 0x6D, 0x69, 0x99, 0x9D, 0x99], []) := by decide

/-- TR10: a NACK at the first write of the second entry keeps the whole list. -/
theorem test_refresh_nack :
    field (fun t => (busOf t, t.dirty, t.linkUnknown)) (exec .refresh (hi (nackAt 12))) =
      some (sent [0x88, 0x8C, 0x88, 0x08, 0x0C, 0x08, 0x49, 0x4D, 0x49, 0x89, 0x8D, 0x89] ++ [(0x88, false)],
        [⟨0, 0⟩, ⟨0, 1⟩], true) := by decide

/-- TC1 and TC2: what CLEAR does to the dirty list and the mirror, under both settings. -/
theorem test_clear_mirror :
    field (fun t => (t.trace, t.dirty, t.grid)) (exec .clear (hi (acks 6))) =
      some (ackedWrites 0x27 [0x08, 0x0C, 0x08, 0x18, 0x1C, 0x18] ++ [.delay .clearSettle], [], [(0, 0x48), (1, 0x69)]) ∧
    field (fun t => (t.dirty, t.grid)) (exec .clear { hi (acks 6) with cfg := { Config.default with clearResetsMirror := true } }) =
      some ([], []) := by decide

/-- TC3: a failed CLEAR keeps the list and emits no marker. -/
theorem test_clear_nack :
    field (fun t => (t.trace, t.dirty, t.linkUnknown)) (exec .clear (hi (nackAt 3))) =
      some (ackedWrites 0x27 [0x08, 0x0C, 0x08] ++ [.write 0x27 0x18 .nack], [⟨0, 0⟩, ⟨0, 1⟩], true) := by decide

/-- TH2 and TH3. -/
theorem test_home :
    field (fun t => (t.trace, t.dirty)) (exec .home { hi (acks 6) with bl := false }) =
      some (ackedWrites 0x27 [0x00, 0x04, 0x00, 0x20, 0x24, 0x20] ++ [.delay .homeSettle], [⟨0, 0⟩, ⟨0, 1⟩]) := by decide

/-- TK1 and TK5: the new bit is on the bus already, and stays after a failed send. -/
theorem test_setBacklight :
    field (fun t => (busOf t, t.bl)) (exec (.setBacklight false) (ready (acks 6))) = some (sent [0x00, 0x04, 0x00, 0x00, 0x04, 0x00], false) ∧
    field (fun t => (busOf t, t.bl, t.linkUnknown)) (exec (.setBacklight false) (ready (nackAt 0))) =
      some ([(0x00, false)], false, true) := by decide

/-- TK15: an undocumented parameter is emitted as computed. -/
theorem test_setEntryMode :
    field busOf (exec (.setEntryMode 0x80) (ready (acks 6))) = some (sent [0x88, 0x8C, 0x88, 0x48, 0x4C, 0x48]) := by decide

/-- TK7. -/
theorem test_setDisplayControl :
    field busOf (exec (.setDisplayControl 0x07) (ready (acks 6))) = some (sent [0x08, 0x0C, 0x08, 0xF8, 0xFC, 0xF8]) := by decide

/-- TK8. -/
theorem test_setShift :
    field busOf (exec (.setShift 0x0C) (ready (acks 6))) = some (sent [0x18, 0x1C, 0x18, 0xC8, 0xCC, 0xC8]) := by decide

/-- TK10. -/
theorem test_setFunction :
    field busOf (exec (.setFunction 0x08) (ready (acks 6))) = some (sent [0x28, 0x2C, 0x28, 0x88, 0x8C, 0x88]) := by decide

/-- TK12. -/
theorem test_setCgramAddr :
    field busOf (exec (.setCgramAddr 0x08) (ready (acks 6))) = some (sent [0x48, 0x4C, 0x48, 0x88, 0x8C, 0x88]) := by decide

/-- TK13. -/
theorem test_writeData :
    field busOf (exec (.writeData 0x1F) (ready (acks 6))) = some (sent [0x19, 0x1D, 0x19, 0xF9, 0xFD, 0xF9]) := by decide

/-- TX7 and TX9. -/
theorem test_reserved :
    field statusWord (exec (.reserved 0xC false 0 0 []) State.reset) = some (some 0x0A) ∧
    field statusWord (exec (.reserved 0xC false 0 0 []) { State.reset with halted := true }) = some (some 0x06) := by decide

/-- The LCD words' bytes, by 41_bit_banger.md R149 (TB1, TB6, TB7 and TB9 among them). -/
theorem test_lcdClear : field busOf (exec .lcdClear (ready (acks 6))) = some (sent [0x08, 0x0C, 0x08, 0x18, 0x1C, 0x18]) := by decide
theorem test_lcdHome : field busOf (exec (.lcdHome true) (ready (acks 6))) = some (sent [0x08, 0x0C, 0x08, 0x38, 0x3C, 0x38]) := by decide
theorem test_lcdEntryMode :
    field busOf (exec (.lcdEntryMode true false) (ready (acks 6))) = some (sent [0x08, 0x0C, 0x08, 0x68, 0x6C, 0x68]) := by decide
theorem test_lcdDisplayControl :
    field busOf (exec (.lcdDisplayControl true false false) (ready (acks 6))) = some (sent [0x08, 0x0C, 0x08, 0xC8, 0xCC, 0xC8]) := by decide
theorem test_lcdShift :
    field busOf (exec (.lcdShift true false 0) (ready (acks 6))) = some (sent [0x18, 0x1C, 0x18, 0x88, 0x8C, 0x88]) := by decide
theorem test_lcdFunctionSet :
    field busOf (exec (.lcdFunctionSet false true false 0) (ready (acks 6))) = some (sent [0x28, 0x2C, 0x28, 0x88, 0x8C, 0x88]) := by decide
theorem test_lcdSetCgramAddr :
    field busOf (exec (.lcdSetCgramAddr 0x08) (ready (acks 6))) = some (sent [0x48, 0x4C, 0x48, 0x88, 0x8C, 0x88]) := by decide
theorem test_lcdSetDdramAddr :
    field busOf (exec (.lcdSetDdramAddr 0x67) (ready (acks 6))) = some (sent [0xE8, 0xEC, 0xE8, 0x78, 0x7C, 0x78]) := by decide
theorem test_lcdWriteData :
    field busOf (exec (.lcdWriteData 0x41) (ready (acks 6))) = some (sent [0x49, 0x4D, 0x49, 0x19, 0x1D, 0x19]) := by decide
theorem test_lcdNull : field busOf (exec .lcdNull (ready (acks 6))) = some (sent [0x08, 0x0C, 0x08, 0x08, 0x0C, 0x08]) := by decide

/-! ## Steps -/

/-- TX6 and TX11: RESERVED_FIELD comes before NOT_READY. -/
theorem test_step_refusals :
    field statusWord (step { State.reset with inputs := [.code (.request 0x3001 [])] }) = some (some 0x0E) ∧
    field statusWord (step { State.reset with inputs := [.code (.request 0x4000 [])] }) = some (some 0x12) := by decide

/-- TX10. -/
theorem test_step_reset :
    field (fun t => (t.halted, t.initState, t.replies)) (step { ready [] with halted := true, inputs := [.reset] }) =
      some (false, .uninit, []) := by decide

/-- Placing a word changes the inputs only, and the step runs it (TK2). -/
theorem test_step_placed_word :
    field (fun t => (busOf t, t.inputs)) (step ((ready (acks 6)).withFetchWord 16 0x5001)) =
      some (sent [0x08, 0x0C, 0x08, 0x08, 0x0C, 0x08], []) := by decide

/-- The reference receiver decodes TR1 as the spec says: DDRAM 0x00 holds 0x48 and 0x01 holds 0x69. -/
def receiver : Receiver where
  addr := 0x27
  fourBit := true
  highHalf := none
  lastEn := false
  backlight := true
  ddram := []
  cgram := []
  pointer := .ddram 0
  increment := true
  shiftEnable := false
  display := (true, false, false)
  fourRow := true
  inPlace := true
  movedAt := 0
  settle := 0
  lost := false
  seen := 0

theorem test_receiver_refresh :
    field (fun t => (receiver.run Config.default t.trace).ddram) (exec .refresh (hi (acks 24))) = some [(0, 0x48), (1, 0x69)] := by decide

/-- R66 (c), R269 and R272: a display shift, or a function set of one line, takes the screen out of the layout; 2 lines of 5x8 dots bring
the line mode back. -/
theorem test_receiver_layout :
    (receiver.execute (.lcdShift true false 0)).inLayout = false ∧ (receiver.execute (.lcdShift false true 0)).inLayout = true ∧
    (receiver.execute (.lcdFunctionSet false false false 0)).inLayout = false ∧
    ((receiver.execute (.lcdFunctionSet false false false 0)).execute (.lcdFunctionSet false true false 0)).inLayout = true ∧
    ((receiver.execute (.lcdEntryMode true true)).execute (.lcdWriteData 0x41)).inLayout = false := by decide

/-- R267, U5: a NACKed write loses the receiver, and later ACKed ones do not bring it back. -/
theorem test_receiver_lost :
    (receiver.run Config.default [.write 0x27 0x88 .nack]).lost = true ∧
    (receiver.run Config.default [.write 0x27 0x88 .nack, .write 0x27 0x8C .ack, .delay .clearSettle]).lost = true ∧
    (receiver.run Config.default [.write 0x28 0x88 .nack]).lost = false := by
  refine ⟨rfl, ?_, rfl⟩
  rw [Receiver.run_cons]
  exact Receiver.run_lost _ (Receiver.observe_nack _ receiver 0x88) _

/-- R76, R265: 0x01 with no settle marker after it, then a null command, loses the receiver at its first latched nibble; with the marker of a
CLEAR between them it does not. -/
theorem test_receiver_settles :
    (receiver.run Config.default (ackedWrites 0x27 (sendBytes .default true 0x01 .cmd ++ [0x08, 0x0C]))).lost = false ∧
    (receiver.run Config.default (ackedWrites 0x27 (sendBytes .default true 0x01 .cmd ++ [0x08, 0x0C, 0x08]))).lost = true ∧
    (receiver.run Config.default (ackedWrites 0x27 (sendBytes .default true 0x01 .cmd) ++ [.delay .clearSettle] ++
      ackedWrites 0x27 (sendBytes .default true 0x00 .cmd))).lost = false := ⟨rfl, rfl, rfl⟩

/-- R212: with the display off there is nothing to see, and what the mirror is held against stays. -/
theorem test_receiver_display_off :
    let off := (receiver.execute (.lcdWriteData 0x48)).execute (.lcdDisplayControl false false false)
    off.visible ⟨0, 0⟩ = none ∧ off.shows ⟨0, 0⟩ = 0x48 ∧
    (off.execute (.lcdDisplayControl true false false)).visible ⟨0, 0⟩ = some 0x48 := by decide

/-- R97: text, bytes and an OR of flags; a character outside ASCII has no code. -/
theorem test_request_lines :
    (RequestLine.setRow 0 (.str "Hi")).codes true = some [.request 0x1000 [0x48, 0x69]] ∧
    (RequestLine.setDisplayControl (.flags [.displayOn, .cursorOn, .blinkOn])).codes true = some [.request 0x7007 []] ∧
    RequestLine.toggleBacklight.codes true = some [.request 0x5000 []] ∧
    (RequestLine.putRow 3 (.bytes [0x21])).codes true = some [.request 0x1003 [0x21], .request 0x2000 []] ∧
    (RequestLine.setRow 0 (.str "é")).codes true = none := by decide

/-! ## Witnesses: states and operands that meet the hypotheses of each statement -/

/-- A state with the answers `as` ahead has its first `n` answers ACKed when the list says so. -/
theorem acks_of {s : State} {n : Nat} (h : ∀ k, k < n → s.answerAt k = .ack) : s.acks n := h

/-- A state READY with the two cells at the ends of the grid dirty. -/
def corners (answers : List Answer) : State :=
  { ready answers with grid := [(0, 0x48), (79, 0x5A)], dirty := [⟨0, 0⟩, ⟨3, 19⟩] }

/-- A state READY with a row-four entry after a valid one: no run reaches it (10_state.md R32). -/
def badRow (answers : List Answer) : State := { ready answers with dirty := [⟨3, 19⟩, ⟨4, 0⟩, ⟨0, 0⟩] }

/-- The same with a column-twenty entry first. -/
def badColumn (answers : List Answer) : State := { ready answers with dirty := [⟨0, 20⟩] }

theorem witness_StepRunsTheDecodedInstruction :
    ({ State.reset with inputs := [.code (.request 0x0027 []), .reset] }).inputs = .code (.request 0x0027 []) :: [.reset] ∧
    decode (.request 0x0027 []) = .instr (.init 0x27) := by decide

theorem witness_StepWithoutAnInstruction :
    State.reset.inputs = [] ∧
    ({ ready [] with inputs := [.code (.request 0x1400 [])] }).inputs = .code (.request 0x1400 []) :: [] ∧
    decode (.request 0x1400 []) = .rejected .reservedField := by decide

theorem witness_PlacedWordIsRunByTheNextStep :
    decodeTableWord 16 0xFFFF = some (.reserved 0xF true 7 0xFF []) ∧ decodeTableWord 9 0 = some .lcdNull ∧
    decodeTableWord 24 0x411000 = some (.setRow false 0 [0x41]) := by decide

theorem witness_DecodeOfEncodeIsTheInstruction :
    (Instr.reserved 0xC false 0 0 []).wf = true ∧ (Instr.reserved 0xF true 7 0xFF [0]).wf = true ∧
    (Instr.setRow true 0xFF [0, 0xFF]).wf = true := by decide

theorem witness_EncodeOfDecodeIsTheCode :
    decode (.request 0xC000 []) = .instr (.reserved 0xC false 0 0 []) ∧ decode (.lcd 0x1FF) = .instr (.lcdWriteData 0xFF) := by decide

theorem witness_DecodedCodeMatchesOneTableRow :
    decode (.request 0xB0FF []) = .instr (.writeData 0xFF) ∧ decode (.request 0xFFFF []) = .instr (.reserved 0xF true 7 0xFF []) ∧
    decode (.lcd 0x0FF) = .instr (.lcdSetDdramAddr 0x7F) := by decide

/-- Every answer of the pre-checks occurs. -/
theorem witness_PrecheckedRequestIsRefusedOrRun :
    precheck { ready [] with halted := true } 0x0027 [] = some .halted ∧ precheck State.reset 0xC000 [] = some .reservedOp ∧
    precheck State.reset 0x3001 [] = some .reservedField ∧ precheck State.reset 0x3000 [] = some .notReady ∧
    precheck State.reset 0x00FF [] = none ∧ precheck (ready []) 0x18FF [1] = none := by decide

theorem witness_SetRowWithWrapIsRefused : (ready []).accepts := by decide

theorem witness_ReservedOpIsRefused : State.reset.halted = false ∧ ({ State.reset with halted := true }).halted = true := by decide

/-- A halted state with an INIT before it; a halted state that RESET frees; a state that a SET_ROW of row 255 halts. -/
theorem witness_HaltedUntilReset :
    ({ ready [] with halted := true, inputs := [.code (.request 0x0027 [])] }).halted = true ∧
    field (fun t => t.halted) (step { ready [] with halted := true, inputs := [.reset] }) = some false ∧
    (ready []).halted = false ∧
    field (fun t => t.halted) (step { ready [] with inputs := [.code (.request 0x10FF [])] }) = some true := by decide

theorem witness_InitCompletes :
    ({ State.reset with answers := acks 18 }).cfg.wf = true ∧ ({ State.reset with answers := acks 18 }).halted = false ∧
    ({ State.reset with answers := acks 18 }).acks 18 := by
  refine ⟨by decide, by decide, acks_of ?_⟩
  decide

/-- A NACK at INIT's first and at its last write. -/
theorem witness_InitFailureStaysForcing :
    ({ State.reset with answers := nackAt 0 }).nacksAt 0 ∧ ({ State.reset with answers := nackAt 17 }).nacksAt 17 ∧
    ({ State.reset with answers := nackAt 17 }).cfg.wf = true ∧ ({ State.reset with answers := nackAt 17 }).halted = false := by
  refine ⟨⟨acks_of ?_, ?_⟩, ⟨acks_of ?_, ?_⟩, ?_, ?_⟩ <;> decide

/-- Rows 0 and 3. -/
theorem witness_SetRowWritesItsRow :
    (corners []).accepts ∧ Memory.wf (corners []).cfg.space (corners []).grid = true ∧ (0 : Byte).toNat ≤ 3 ∧ (3 : Byte).toNat ≤ 3 := by decide

/-- Rows 4 and 255. -/
theorem witness_SetRowOutOfRangeHalts : (ready []).accepts ∧ 3 < (4 : Byte).toNat ∧ 3 < (255 : Byte).toNat := by decide

/-- The first and the last column, of an empty text and of one of 21 codes. -/
theorem witness_NormalizedTextIsPaddedOrCut :
    0 < 20 ∧ 19 < 20 ∧ (normalizeText 0x20 [])[19]? = some 0x20 ∧ (normalizeText 0x20 (List.replicate 20 0x41 ++ [0x42]))[19]? = some 0x41 := by
  decide

/-- Row 0 holds "Hi" and is clean, and becomes "Ho" (program P2); twice the same text. -/
theorem witness_SetRowIsMinimalAndIdempotent :
    let s := { hi [] with dirty := [⟨1, 0⟩] }
    s.accepts ∧ Memory.wf s.cfg.space s.grid = true ∧ (0 : Byte).toNat ≤ 3 ∧ (∀ x ∈ s.dirty, x.row ≠ (0 : Byte).toNat) ∧
    (∀ c, c < 20 → s.cellAt ⟨(0 : Byte).toNat, c⟩ = (normalizeText s.cfg.space [0x48, 0x69]).getD c 0) ∧
    ∃ t u, exec (.setRow false 0 [0x48, 0x6F]) s = .next t ∧ exec (.setRow false 0 [0x48, 0x6F]) t = .next u := by
  refine ⟨by decide, by decide, by decide, by decide, by decide, ?_⟩
  exact ⟨_, _, rfl, rfl⟩

/-- All ACKed; a NACK at the first and at the last write. -/
theorem witness_RefreshWritesBackEveryEntry :
    (corners []).cfg.wf = true ∧ (∀ x ∈ (corners []).dirty, x.valid = true) ∧ (corners []).accepts ∧ (corners (acks 24)).acks 24 ∧
    (corners (nackAt 0)).nacksAt 0 ∧ (corners (nackAt 23)).nacksAt 23 ∧ (ready []).acks (12 * (ready []).dirty.length) := by
  refine ⟨?_, ?_, ?_, acks_of ?_, ⟨acks_of ?_, ?_⟩, ⟨acks_of ?_, ?_⟩, acks_of ?_⟩ <;> decide

/-- A row of 4 after one entry written, and a column of 20 first. -/
theorem witness_RefreshHaltsAtAnInvalidEntry :
    (badRow (acks 12)).cfg.wf = true ∧ (badRow (acks 12)).accepts ∧ (badRow (acks 12)).dirty = [⟨3, 19⟩] ++ ⟨4, 0⟩ :: [⟨0, 0⟩] ∧
    (⟨3, 19⟩ : Coord).valid = true ∧ (⟨4, 0⟩ : Coord).valid = false ∧ (badRow (acks 12)).acks 12 ∧
    (badColumn []).dirty = [] ++ ⟨0, 20⟩ :: [] ∧ (⟨0, 20⟩ : Coord).valid = false ∧ (badColumn []).accepts := by
  refine ⟨?_, ?_, ?_, ?_, ?_, acks_of ?_, ?_, ?_, ?_⟩ <;> decide

/-- The hypotheses of every request that sends one byte: all six ACKed, a NACK at the first, a NACK at the last. -/
theorem one_byte_hypotheses :
    (ready []).cfg.wf = true ∧ (ready []).accepts ∧ (ready (acks 6)).acks 6 ∧ (ready (nackAt 0)).nacksAt 0 ∧
    (ready (nackAt 5)).nacksAt 5 := by
  refine ⟨?_, ?_, acks_of ?_, ⟨acks_of ?_, ?_⟩, ⟨acks_of ?_, ?_⟩⟩ <;> decide

theorem witness_ClearCompletesOrKeepsItsState :
    (hi (acks 6)).cfg.wf = true ∧ (hi (acks 6)).accepts ∧ (hi (acks 6)).acks 6 ∧ (hi (nackAt 5)).nacksAt 5 := by
  refine ⟨?_, ?_, acks_of ?_, ⟨acks_of ?_, ?_⟩⟩ <;> decide

theorem witness_HomeCompletesOrKeepsItsState :
    (ready []).cfg.wf = true ∧ (ready []).accepts ∧ (ready (acks 6)).acks 6 ∧ (ready (nackAt 0)).nacksAt 0 ∧
    (ready (nackAt 5)).nacksAt 5 := one_byte_hypotheses

theorem witness_SetBacklightWritesTheBitFirst :
    (ready []).cfg.wf = true ∧ (ready []).accepts ∧ (ready (acks 6)).acks 6 ∧ (ready (nackAt 0)).nacksAt 0 ∧
    (ready (nackAt 5)).nacksAt 5 := one_byte_hypotheses

theorem witness_ParameterPassthroughsSendTheirCommand :
    (ready []).cfg.wf = true ∧ (ready []).accepts ∧ (ready (acks 6)).acks 6 ∧ (ready (nackAt 0)).nacksAt 0 ∧
    (ready (nackAt 5)).nacksAt 5 := one_byte_hypotheses

theorem witness_WriteDataSendsItsByte :
    (ready []).cfg.wf = true ∧ (ready []).accepts ∧ (ready (acks 6)).acks 6 ∧ (ready (nackAt 0)).nacksAt 0 ∧
    (ready (nackAt 5)).nacksAt 5 := one_byte_hypotheses

theorem witness_LcdWordsAreSerialised :
    (ready []).cfg.wf = true ∧ (ready []).accepts ∧ (ready (acks 6)).acks 6 :=
  ⟨one_byte_hypotheses.1, one_byte_hypotheses.2.1, one_byte_hypotheses.2.2.1⟩

theorem witness_LcdWordsWaitForReady :
    State.reset.halted = false ∧ State.reset.initState ≠ .ready ∧ ({ State.reset with initState := .forcing }).initState ≠ .ready := by decide

theorem witness_PassthroughFrame :
    isPassthrough (.setShift 0) = true ∧ isPassthrough .lcdNull = true ∧ (ready []).cfg.wf = true ∧
    (∃ t, exec (.setShift 0) (ready (nackAt 3)) = .next t) ∧ ∃ t, exec .lcdNull (ready (acks 6)) = .next t := by
  refine ⟨by decide, by decide, by decide, ?_, ?_⟩ <;> exact ⟨_, rfl⟩

theorem witness_DisplayAndBacklightFrame :
    (corners []).cfg.wf = true ∧ (∀ x ∈ (corners []).dirty, x.valid = true) ∧
    (∃ t, exec (.setBacklight false) (corners (acks 6)) = .next t) ∧ (∃ t, exec .refresh (corners (acks 24)) = .next t) ∧
    (∃ t, exec .clear (corners (acks 6)) = .next t) ∧ (corners []).cfg.clearResetsMirror = false ∧
    ∃ t, exec .home (corners (acks 6)) = .next t := by
  refine ⟨by decide, by decide, ⟨_, rfl⟩, ⟨_, rfl⟩, ⟨_, rfl⟩, by decide, ⟨_, rfl⟩⟩

/-- A state that runs, one that is halted, and a cell outside row 0. -/
theorem witness_SetRowFrame :
    (∃ t, exec (.setRow false 0 [0x41]) (corners []) = .next t) ∧
    (∃ t, exec (.setRow false 255 []) { ready [] with halted := true } = .next t) ∧ 3 < (255 : Byte).toNat ∧
    ∀ c, c < 20 → 20 ≠ (⟨rowOperand 0, c⟩ : Coord).cell := by
  refine ⟨⟨_, rfl⟩, ⟨_, rfl⟩, by decide, by decide⟩

theorem witness_InitFrame :
    State.reset.cfg.wf = true ∧ State.reset.halted = false ∧ (∃ t, exec (.init 0x27) State.reset = .next t) ∧
    ∃ t, exec (.init 0x27) { State.reset with halted := true } = .next t := by
  refine ⟨by decide, by decide, ⟨_, rfl⟩, ⟨_, rfl⟩⟩

theorem witness_ResetInputRestoresTheResetState :
    ({ corners [] with halted := true, inputs := [.reset] }).inputs = .reset :: [] := by decide

/-- Dirty entries at both corners, before a REFRESH and before a RESET. -/
theorem witness_StepKeepsTheInvariant :
    (corners []).Inv ∧ ({ corners (acks 24) with inputs := [.code (.request 0x2000 [])] }).Inv ∧
    ∃ t, step { corners (acks 24) with inputs := [.code (.request 0x2000 [])] } = .next t := by
  refine ⟨by decide, by decide, ⟨_, rfl⟩⟩

theorem witness_OnlySetRowReportsAnInvalidCoordinate :
    (ready []).Inv ∧ exec (.setRow false 4 []) (ready []) =
      .next { ready [] with halted := true, replies := [.invalidCoordinate 4 none] } := ⟨by decide, rfl⟩

theorem witness_EveryRequestReturnsOneStatus :
    ({ ready [] with inputs := [.code (.request 0x3001 [])] }).inputs = .code (.request 0x3001 []) :: [] ∧
    ∃ t, step { ready [] with inputs := [.code (.request 0x3001 [])] } = .next t := ⟨by decide, _, rfl⟩

/-- A request that ends with TRANSPORT_ERROR from a link that was known. -/
theorem witness_TransportErrorRecord :
    (corners (nackAt 23)).cfg.wf = true ∧ (∀ x ∈ (corners (nackAt 23)).dirty, x.valid = true) ∧
    (corners (nackAt 23)).linkUnknown = false ∧
    field (fun t => (t.replies, t.linkUnknown)) (exec .refresh (corners (nackAt 23))) = some ([.transportError], true) := by decide

/-- INIT's three ends, and a RESET that changes `init_state`. -/
theorem witness_OnlyInitAndResetWriteInitState :
    State.reset.cfg.wf = true ∧
    field (fun t => (t.replies, t.initState)) (step { State.reset with answers := acks 18, inputs := [.code (encode (.init 0x27))] }) =
      some ([.ok], .ready) ∧
    field (fun t => (t.replies, t.initState)) (step { ready (nackAt 17) with inputs := [.code (encode (.init 0x27))] }) =
      some ([.transportError], .forcing) ∧
    field (fun t => t.initState) (step { ready [] with inputs := [.reset] }) = some .uninit ∧
    field (fun t => (t.replies, t.initState)) (step { ready [] with halted := true, inputs := [.code (encode (.init 0x27))] }) =
      some ([.refused .halted], .ready) := by decide

theorem witness_NoEventBeforeReadyButInits :
    let s := { State.reset with inputs := [.code (.request 0x2000 [])] }
    ¬ s.accepts ∧ (∀ a, s.inputs.head? ≠ some (.code (encode (.init a)))) ∧ ∃ t, step s = .next t := by
  refine ⟨by decide, by decide, ⟨_, rfl⟩⟩

theorem witness_EveryBusWriteIsWellDriven :
    State.reset.cfg.wf = true ∧
    ∃ t, step { State.reset with answers := acks 18, inputs := [.code (.request 0x0027 [])] } = .next t ∧
      (newEvents { State.reset with answers := acks 18 } t).length = 22 := by
  refine ⟨by decide, _, rfl, by decide⟩

theorem witness_StepKeepsReadWriteLow :
    State.reset.cfg.wf = true ∧ (∃ t, step { ready (acks 6) with inputs := [.code (.lcd 0)] } = .next t) ∧
    ∀ dev b answer, Event.write dev b answer ∈ (ready (acks 6)).trace → b &&& (ready (acks 6)).cfg.rwMask = 0 := by
  refine ⟨by decide, ⟨_, rfl⟩, ?_⟩
  intro dev b answer h
  cases h

theorem witness_DevAddrIsNotReadBeforeInit :
    ({ State.reset with inputs := [.code (.request 0x0027 [])] }).initState ≠ .ready ∧
    ({ State.reset with initState := .forcing }).initState ≠ .ready := by decide

theorem witness_CursorAndLinkUnknownAreNotRead :
    (∃ t, step { ready (acks 6) with inputs := [.code (.request 0x4000 [])] } = .next t) ∧
    ∃ u, step { ready (acks 6) with inputs := [.code (.request 0x4000 [])], cursor := ⟨3, 19⟩, linkUnknown := true } = .next u :=
  ⟨⟨_, rfl⟩, ⟨_, rfl⟩⟩

/-- A completed REFRESH of two entries, and a refused one. -/
theorem witness_WriteAndMarkerCounts :
    (corners (acks 24)).cfg.wf = true ∧ (∀ x ∈ (corners (acks 24)).dirty, x.valid = true) ∧
    field (fun t => t.replies) (exec .refresh (corners (acks 24))) = some [.ok] ∧
    field (fun t => t.replies) (exec .refresh State.reset) = some [.refused .notReady] := by decide

/-- The trace of HOME with the write after it at 10000 microseconds. -/
theorem witness_NothingFollowsBeforeTheSettleTime :
    let s := ready (acks 6)
    let timed : List (Nat × Event) :=
      (ackedWrites 0x27 [0x08, 0x0C, 0x08, 0x28, 0x2C, 0x28]).map (fun e => (0, e)) ++ [(0, .delay .homeSettle), (10000, .write 0x27 0x08 .ack)]
    s.cfg.wf = true ∧ field (fun t => (t.replies, t.trace ++ [.write 0x27 0x08 .ack])) (exec .home s) = some ([.ok], timed.map Prod.snd) ∧
    respectsDelays s.cfg timed := by
  refine ⟨by decide, by decide, ?_⟩
  simp [respectsDelays, ackedWrites, Event.wait, Config.delayTime, ready, State.reset, Config.default]

/-- Program P3 of the test vectors, with CLEAR_RESETS_MIRROR false. -/
theorem witness_MirrorIsStaleAfterClear :
    let s := hi (acks 6)
    s.cfg.wf = true ∧ s.cfg.clearResetsMirror = false ∧ s.accepts ∧ s.acks 6 ∧ (0 : Byte).toNat ≤ 3 ∧
    (∀ c, c < 20 → s.cellAt ⟨(0 : Byte).toNat, c⟩ = (normalizeText s.cfg.space [0x48, 0x69]).getD c 0) ∧
    ∃ t u v, exec .clear s = .next t ∧ exec (.setRow false 0 [0x48, 0x69]) t = .next u ∧ exec .refresh u = .next v := by
  refine ⟨by decide, by decide, by decide, acks_of (by decide), by decide, by decide, ?_⟩
  exact ⟨_, _, _, rfl, rfl, rfl⟩

theorem witness_EncoderLaws :
    (encDdram .default, Config.default.selDdram) ∈
      [(encEntry .default, Config.default.selEntry), (encDispctl .default, Config.default.selDispctl),
        (encShift .default, Config.default.selShift), (encFunction .default, Config.default.selFunction),
        (encCgram .default, Config.default.selCgram), (encDdram .default, Config.default.selDdram)] := by simp

/-- The largest documented parameter of each command. -/
theorem witness_DocumentedParametersSelectTheirCommand :
    (Instr.setEntryMode 0x03).documented = true ∧ (Instr.setDisplayControl 0x07).documented = true ∧
    (Instr.setShift 0x0C).documented = true ∧ (Instr.setFunction 0x1C).documented = true ∧
    (Instr.setCgramAddr 0x3F).documented = true := by decide

/-- Cells where row ranges end. -/
theorem witness_ControllerAddressMap :
    (⟨0, 19⟩ : Coord).valid = true ∧ (⟨2, 0⟩ : Coord).valid = true ∧ (⟨3, 19⟩ : Coord).valid = true ∧
    controllerAddr ⟨3, 19⟩ = controllerAddr ⟨3, 19⟩ := by decide

theorem witness_PseudoRequestsExpand :
    (ready (acks 6)).cfg.wf = true ∧ (ready (acks 6)).accepts ∧ (ready (acks 6)).acks 6 ∧ (corners []).accepts ∧
    Memory.wf (corners []).cfg.space (corners []).grid = true ∧ (3 : Byte).toNat ≤ 3 := by
  refine ⟨?_, ?_, acks_of ?_, ?_, ?_, ?_⟩ <;> decide

theorem witness_NibbleLatchesOnce :
    Config.default.wf = true ∧ (0xF0 : Byte) = hiNibble 0xFF ∧ (0xF0 : Byte) = loNibble 0xFF := by decide

theorem witness_SendRoundTrip : Config.default.wf = true ∧ receiver.atByteStart := by
  refine ⟨by decide, ?_⟩
  exact ⟨rfl, rfl, rfl, rfl, rfl⟩

/-- Both corners dirty at a receiver that is blank. -/
theorem witness_RefreshConverges :
    (corners (acks 24)).Inv ∧ (corners (acks 24)).cfg.selDdram = 0x80 ∧ (corners (acks 24)).linkUnknown = false ∧
    receiver.atByteStart ∧ receiver.addr = (corners (acks 24)).devAddr ∧
    field (fun t => t.replies) (exec .refresh (corners (acks 24))) = some [.ok] ∧
    Memory.wf receiverBlank receiver.ddram = true ∧ (⟨3, 19⟩ : Coord) ∈ (corners (acks 24)).dirty := by
  refine ⟨by decide, by decide, by decide, ⟨rfl, rfl, rfl, rfl, rfl⟩, by decide, by decide, by decide, by decide⟩

/-- A clean cell of `corners` is neither corner. -/
theorem corners_clean {answers : List Answer} {x : Coord} (hx : x.valid = true) (hd : x ∉ (corners answers).dirty) :
    (corners answers).cellAt x = 0x20 := by
  have h0 : x.cell ≠ 0 := fun h => hd (by
    have := Coord.cell_inj hx (y := ⟨0, 0⟩) (by decide) (h.trans (by decide))
    rw [this]; simp [corners])
  have h79 : x.cell ≠ 79 := fun h => hd (by
    have := Coord.cell_inj hx (y := ⟨3, 19⟩) (by decide) (h.trans (by decide))
    rw [this]; simp [corners])
  simp [State.cellAt, corners, ready, Memory.read, h0, h79, State.reset, Config.default]

/-- The mirror of `corners` agrees with a blank receiver on every clean cell. -/
theorem corners_held (answers : List Answer) : MirrorHeld (corners answers) receiver :=
  fun _ _ hx hd => (corners_clean hx hd).symm

theorem corners_agree (answers : List Answer) : MirrorAgrees (corners answers) receiver :=
  fun _ _ hx hd => (corners_clean hx hd).symm

theorem witness_RefreshRestoresAgreement :
    (corners (acks 24)).Inv ∧ (corners (acks 24)).cfg.selDdram = 0x80 ∧ (corners (acks 24)).linkUnknown = false ∧
    receiver.atByteStart ∧ receiver.addr = (corners (acks 24)).devAddr ∧ Memory.wf receiverBlank receiver.ddram = true ∧
    MirrorHeld (corners (acks 24)) receiver ∧ MirrorAgrees (corners (acks 24)) receiver ∧ receiver.inLayout = true ∧
    receiver.shiftEnable = false ∧ field (fun t => t.replies) (exec .refresh (corners (acks 24))) = some [.ok] := by
  refine ⟨by decide, by decide, by decide, ⟨rfl, rfl, rfl, rfl, rfl⟩, by decide, by decide, corners_held _, corners_agree _, by decide, by decide,
    by decide⟩

theorem witness_SetRowKeepsAgreement :
    (corners []).Inv ∧ (corners []).linkUnknown = false ∧ MirrorHeld (corners []) receiver ∧ MirrorAgrees (corners []) receiver ∧
    ∃ t, exec (.setRow false 3 [0x41]) (corners []) = .next t := by
  refine ⟨by decide, by decide, corners_held _, corners_agree _, ⟨_, rfl⟩⟩

theorem witness_InitBringsTheReceiverUp :
    ({ State.reset with answers := acks 18 }).cfg = Config.default ∧ ({ State.reset with answers := acks 18 }).halted = false ∧
    ({ State.reset with answers := acks 18 }).linkUnknown = false ∧
    ({ State.reset with answers := acks 18 }).acks 18 ∧ ({ receiver with fourBit := false }).atPowerOn ∧
    ({ receiver with fourBit := false }).addr = 0x27 ∧ ∃ t, exec (.init 0x27) { State.reset with answers := acks 18 } = .next t := by
  refine ⟨rfl, rfl, rfl, acks_of (by decide), ⟨rfl, rfl, rfl, rfl, rfl⟩, rfl, ⟨_, rfl⟩⟩

end Sys2Proof.Tests
end

section
/-! SUPPORT. Requests that send one byte and then only change the state, CLEAR and HOME among them. -/

namespace Sys2Proof.Machine

/-- Everything a request can do whose body sends one byte and then changes the state by `f`: refused, completed, or ended at its first NACK. -/
theorem runRequest_sendThen_cases {b : Byte} {m : Mode} {f : State → State} {body : State → Run} {s : State} (h : s.cfg.wf = true)
    (hb : body s = (send b m s).andThen fun s' => .done (f s')) :
    (∃ r, (r = .halted ∨ r = .notReady) ∧ runRequest true body s = s.reply (.refused r)) ∨
    (s.accepts ∧ s.acks 6 ∧ runRequest true body s = (f (s.afterBytes (sendBytes s.cfg s.bl b m))).reply .ok) ∨
    (s.accepts ∧ ∃ k, k < 6 ∧ s.nacksAt k ∧ runRequest true body s = s.afterSendFailed b m k) := by
  rcases runRequest_cases true body s with ⟨r, hr, e⟩ | ⟨hh, hr, e⟩
  · exact .inl ⟨r, hr, e⟩
  · rcases send_cases b m h with ⟨ha, hs⟩ | ⟨k, hk, hn, hs⟩
    · exact .inr (.inl ⟨⟨hh, hr rfl⟩, ha, by rw [e, hb, hs]; rfl⟩)
    · exact .inr (.inr ⟨⟨hh, hr rfl⟩, k, hk, hn, by rw [e, hb, hs]; rfl⟩)

/-- Such a request returns OK only when it completed. -/
theorem runRequest_sendThen_of_ok {b : Byte} {m : Mode} {f : State → State} {body : State → Run} {s : State} (h : s.cfg.wf = true)
    (hb : body s = (send b m s).andThen fun s' => .done (f s')) (hok : (runRequest true body s).replies = s.replies ++ [.ok]) :
    runRequest true body s = (f (s.afterBytes (sendBytes s.cfg s.bl b m))).reply .ok := by
  rcases runRequest_sendThen_cases h hb with ⟨r, -, e⟩ | ⟨-, -, e⟩ | ⟨-, k, -, -, e⟩
  · simp [e] at hok
  · exact e
  · simp [e, State.afterSendFailed] at hok

/-- A completed CLEAR ends its trace with its settle marker (43_display_memory_ops.md R189). -/
theorem exec_clear_trace_of_ok {s t : State} (h : s.cfg.wf = true) (he : exec .clear s = .next t)
    (hok : t.replies = s.replies ++ [.ok]) : ∃ pre, t.trace = pre ++ [.delay .clearSettle] := by
  obtain rfl : runRequest true clearBody s = t := Host.Outcome.next.inj he
  exact ⟨_, by rw [runRequest_sendThen_of_ok h rfl hok, State.reply_trace, clearTail_trace]⟩

/-- A completed HOME ends its trace with its settle marker (R191). -/
theorem exec_home_trace_of_ok {s t : State} (h : s.cfg.wf = true) (he : exec .home s = .next t)
    (hok : t.replies = s.replies ++ [.ok]) : ∃ pre, t.trace = pre ++ [.delay .homeSettle] := by
  obtain rfl : runRequest true homeBody s = t := Host.Outcome.next.inj he
  exact ⟨_, by rw [runRequest_sendThen_of_ok (f := fun s' => { s' with cursor := ⟨0, 0⟩ }.delay .homeSettle) h rfl hok,
    State.reply_trace, State.delay_trace]⟩

end Sys2Proof.Machine
end

section
/-! SUPPORT. Timed traces that respect the delay markers (70_reset_and_hazards.md R275). -/

namespace Sys2Proof.Machine

/-- The duty between neighbours holds between any event and every later one: no event comes before an earlier one's wait is over. -/
theorem respectsDelays.pairwise {c : Config} :
    ∀ {timed : List (Nat × Event)}, respectsDelays c timed → timed.Pairwise fun p q => p.1 + p.2.wait c ≤ q.1
  | [], _ => .nil
  | [_], _ => List.pairwise_singleton _ _
  | p :: q :: rest, ⟨hpq, hrest⟩ => by
    have ih := respectsDelays.pairwise hrest
    refine .cons (fun x hx => ?_) ih
    rcases List.mem_cons.1 hx with rfl | hx
    · exact hpq
    · have hqx := List.rel_of_pairwise_cons ih hx
      omega

/-- A settle marker of an allowed configuration makes what follows wait CLEAR_SETTLE_MIN (00_scope.md R9). -/
theorem clearSettleMin_le_wait {c : Config} (h : c.wf = true) {k : DelayName} (hk : k = .clearSettle ∨ k = .homeSettle) :
    Config.clearSettleMin ≤ (Event.delay k).wait c := by
  rcases hk with rfl | rfl <;> exact Config.wf_settle h

/-- In a timed trace that respects the delays, the event that ends a first part of it is found at that part's end,
and every later event comes after that event's wait. -/
theorem respectsDelays.after {c : Config} {timed : List (Nat × Event)} (h : respectsDelays c timed) {pre later : List Event} {e : Event}
    (ht : timed.map Prod.snd = (pre ++ [e]) ++ later) :
    ∃ u, timed[pre.length]? = some (u, e) ∧ ∀ q ∈ timed.drop (pre.length + 1), u + e.wait c ≤ q.1 := by
  rw [List.append_assoc, List.singleton_append] at ht
  obtain ⟨a, b, rfl, rfl, hb⟩ := List.map_eq_append_iff.1 ht
  obtain ⟨⟨u, _⟩, b, rfl, rfl, rfl⟩ := List.map_eq_cons_iff.1 hb
  have hlater := (List.pairwise_cons.1 (List.pairwise_append.1 h.pairwise).2.1).1
  exact ⟨u, by simp, by simpa [List.drop_length_add_append] using hlater⟩

end Sys2Proof.Machine
end

section
/-! What follows a completed CLEAR or HOME (70_reset_and_hazards.md R265). -/

namespace Sys2Proof.Machine

/-- A completed CLEAR or HOME ends its trace with a settle marker. -/
theorem exec_clear_or_home_trace_of_ok {i : Instr} {s t : State} (hi : i = .clear ∨ i = .home) (h : s.cfg.wf = true)
    (he : exec i s = .next t) (hok : t.replies = s.replies ++ [.ok]) :
    ∃ pre k, (k = .clearSettle ∨ k = .homeSettle) ∧ t.trace = pre ++ [.delay k] := by
  rcases hi with rfl | rfl
  · obtain ⟨pre, hpre⟩ := exec_clear_trace_of_ok h he hok
    exact ⟨pre, _, .inl rfl, hpre⟩
  · obtain ⟨pre, hpre⟩ := exec_home_trace_of_ok h he hok
    exact ⟨pre, _, .inr rfl, hpre⟩

/-- Settles O48: the request's last event is its settle marker, and the duty between neighbours carries over to every later event. -/
theorem nothingFollowsBeforeTheSettleTime : Obligations.NothingFollowsBeforeTheSettleTime := by
  unfold Obligations.NothingFollowsBeforeTheSettleTime
  intro i s t hi hwf he hok timed later htimed hdelays
  obtain ⟨pre, k, hk, htrace⟩ := exec_clear_or_home_trace_of_ok hi hwf he hok
  rw [htrace] at htimed ⊢
  obtain ⟨u, hat, hafter⟩ := hdelays.after htimed
  have hwait : 1520 ≤ (Event.delay k).wait s.cfg := clearSettleMin_le_wait hwf hk
  refine ⟨u, k, by simpa using hat, hk, fun q hq => ?_⟩
  have hq' := hafter q (by simpa using hq)
  omega

end Sys2Proof.Machine
end

section
/-! SUPPORT. Rules about how a body runs: what holds where it ends, and what it raises with. -/

namespace Sys2Proof.Machine

/-- `D` holds of the state a run completes in, `R` of the error and the state it raises in. -/
def Run.Sat (D : State → Prop) (R : Raise → State → Prop) : Run → Prop
  | .done s => D s
  | .raised e s => R e s

theorem Run.Sat.andThen {P D : State → Prop} {R : Raise → State → Prop} {r : Run} {f : State → Run} (hr : r.Sat P R)
    (hf : ∀ t, P t → (f t).Sat D R) : (r.andThen f).Sat D R := by
  cases r with
  | done t => exact hf t hr
  | raised e t => exact hr

/-- What a request's final state satisfies, from what its body's run does. -/
theorem Run.Sat.finish {D Q : State → Prop} {R : Raise → State → Prop} {r : Run} (hr : r.Sat D R)
    (hd : ∀ t, D t → Q (t.reply .ok)) (he : ∀ e t, R e t → Q (t.takeError e)) : Q r.finish := by
  cases r with
  | done t => exact hd t hr
  | raised e t => exact he e t hr

/-- Every ACKed bus write keeps `P`, and a NACKed one leaves what `R` says of TransportError. -/
structure BusRule (P : State → Prop) (R : Raise → State → Prop) : Prop where
  ack : ∀ s b, P s → s.answerAt 0 = .ack → P (s.written b)
  nack : ∀ s b, P s → s.answerAt 0 = .nack → R .transport (s.written b)

section
variable {P : State → Prop} {R : Raise → State → Prop} (h : BusRule P R)
include h

theorem busWrite_sat (b : Byte) {s : State} (hs : P s) : (busWrite b s).Sat P R := by
  unfold busWrite
  cases ha : s.answerAt 0 with
  | ack => exact h.ack s b hs ha
  | nack => exact h.nack s b hs ha

theorem write4bits_sat (x : Byte) {s : State} (hs : P s) : (write4bits x s).Sat P R :=
  ((busWrite_sat h _ hs).andThen fun _ => busWrite_sat h _).andThen fun _ => busWrite_sat h _

theorem send_sat (b : Byte) (m : Mode) {s : State} (hs : P s) : (send b m s).Sat P R :=
  (write4bits_sat h _ hs).andThen fun _ => write4bits_sat h _

theorem sendWord_sat (w : LcdWord) {s : State} (hs : P s) : (sendWord w s).Sat P R := send_sat h _ _ hs

/-- REFRESH's entries raise InvalidCoordinate at an entry outside the grid only (43_display_memory_ops.md R187). -/
theorem refreshEntries_sat {xs : List Coord}
    (hinv : ∀ x ∈ xs, x.valid = false → ∀ t, P t → R (.coordinate x.row (some x.col)) t) {s : State} (hs : P s) :
    (refreshEntries xs s).Sat P R := by
  induction xs generalizing s with
  | nil => exact hs
  | cons x xs ih =>
    have hentry : (refreshEntry x s).Sat P R := by
      unfold refreshEntry
      split
      · exact (send_sat h _ _ hs).andThen fun _ => send_sat h _ _
      · next hx => exact hinv x List.mem_cons_self (by simpa using hx) s hs
    exact hentry.andThen fun t ht => ih (fun y hy => hinv y (List.mem_cons_of_mem _ hy)) ht

theorem clearBody_sat {D : State → Prop} (hclear : ∀ t, P t → D (clearTail t)) {s : State} (hs : P s) : (clearBody s).Sat D R :=
  (send_sat h _ _ hs).andThen fun t ht => hclear t ht

/-- INIT once its construction values are written and FORCING is entered (42_initialization.md R163 to R166). -/
theorem initBody_sat {D : State → Prop} (hdelay : ∀ k t, P t → P (t.delay k)) (hclear : ∀ t, P t → P (clearTail t))
    (hready : ∀ t, P t → D { t with initState := .ready }) {a : Byte} {s : State} (hs : P (initWait (initReset a s))) :
    (initBody a s).Sat D R := by
  have hforce : (initForce (initWait (initReset a s))).Sat P R :=
    ((write4bits_sat h _ hs).andThen fun t ht => write4bits_sat h _ (hdelay _ t ht)).andThen fun t ht => hdelay _ t ht
  exact ((hforce.andThen fun _ => clearBody_sat h hclear).andThen fun _ => send_sat h _ _).andThen hready

end

/-- SET_ROW's columns keep what a change of one cell in range keeps. -/
theorem setCells_keeps {P : State → Prop} (h : ∀ x v s, x.valid = true → P s → P (setCell x v s)) {r : Nat} (hr : r < 4) :
    ∀ {c : Nat} {codes : List Byte} {s : State}, c + codes.length ≤ 20 → P s → P (setCells r c codes s)
  | _, [], _, _, hs => hs
  | c, v :: codes, s, hc, hs => by
    rw [List.length_cons] at hc
    have hx : Coord.valid ⟨r, c⟩ = true := (Coord.valid_iff _).2 ⟨hr, show c < 20 by omega⟩
    exact setCells_keeps (c := c + 1) h hr (by omega) (h ⟨r, c⟩ v s hx hs)

/-- A normalised text is one row long (43_display_memory_ops.md R181). -/
theorem normalizeText_length (space : Byte) (text : List Byte) : (normalizeText space text).length = 20 := by
  simp [normalizeText, Config.cols]

/-- SET_ROW raises before its first column, and otherwise keeps what a change of one cell in range keeps (R182 to R184). -/
theorem setRowBody_sat {P : State → Prop} {R : Raise → State → Prop} {w : Bool} {a : Byte} {s : State} (text : List Byte)
    (h : ∀ x v t, x.valid = true → P t → P (setCell x v t)) (hwrap : R (.refuse .wrapUnimplemented) s)
    (hrow : w = false → 3 < a.toNat → R (.coordinate a.toNat none) s) (hs : P s) : (setRowBody w a text s).Sat P R := by
  unfold setRowBody
  split
  · exact hwrap
  · next hw =>
    split
    · next ha => exact hrow (by simpa using hw) ha
    · next ha =>
      exact setCells_keeps h (show rowOperand a < 4 by omega) (by rw [normalizeText_length]) hs

end Sys2Proof.Machine
end

section
/-! SUPPORT. Every instruction is one request: its pre-checks, then its body. What the bodies have in common. -/

namespace Sys2Proof.Machine

/-- The body of an instruction: what it does once past its pre-checks. -/
def bodyOf : Instr → State → Run
  | .init a => initBody a
  | .setRow w a text => setRowBody w a text
  | .refresh => refreshBody
  | .clear => clearBody
  | .home => homeBody
  | .setBacklight e => fun s => send encNull .cmd { s with bl := e }
  | .setEntryMode p => fun s => send (encEntry s.cfg p) .cmd s
  | .setDisplayControl p => fun s => send (encDispctl s.cfg p) .cmd s
  | .setShift p => fun s => send (encShift s.cfg p) .cmd s
  | .setFunction p => fun s => send (encFunction s.cfg p) .cmd s
  | .setCgramAddr p => fun s => send (encCgram s.cfg p) .cmd s
  | .writeData d => send d .data
  | .reserved _ _ _ _ _ => Run.raised (.refuse .reservedOp)
  | .lcdClear => sendWord (packLcd false 0x01)
  | .lcdHome u => sendWord (packLcd false (lcdHomeByte u))
  | .lcdEntryMode i h => sendWord (packLcd false (lcdEntryModeByte i h))
  | .lcdDisplayControl d c b => sendWord (packLcd false (lcdDisplayControlByte d c b))
  | .lcdShift t r u => sendWord (packLcd false (lcdShiftByte t r u))
  | .lcdFunctionSet l n f u => sendWord (packLcd false (lcdFunctionSetByte l n f u))
  | .lcdSetCgramAddr a => sendWord (packLcd false (lcdSetCgramAddrByte a))
  | .lcdSetDdramAddr a => sendWord (packLcd false (lcdSetDdramAddrByte a))
  | .lcdWriteData d => sendWord (packLcd true d)
  | .lcdNull => sendWord (packLcd false 0x00)

/-- Every instruction but INIT and RESERVED is refused while the block is not READY (60_exceptions.md R232). -/
def needsReady : Instr → Bool
  | .init _ => false
  | .reserved _ _ _ _ _ => false
  | _ => true

/-- A refusal for the encoding is a request whose body refuses (30_encoding.md R94). -/
theorem refuseEncoding_eq (r : Reason) (s : State) : refuseEncoding r s = runRequest false (Run.raised (.refuse r)) s := by
  cases h : s.halted <;> simp [refuseEncoding, runRequest, State.gate, h]

/-- Every instruction is its pre-checks and its body. -/
theorem exec_eq (i : Instr) (s : State) : exec i s = .next (runRequest (needsReady i) (bodyOf i) s) := by
  cases i
  case reserved => exact congrArg _ (refuseEncoding_eq .reservedOp s)
  all_goals rfl

/-- The coordinates an instruction can report as invalid (60_exceptions.md R237). -/
def reportsInvalid (s : State) : Instr → Nat → Option Nat → Prop
  | .setRow w a _, row, col => w = false ∧ 3 < a.toNat ∧ row = a.toNat ∧ col = none
  | .refresh, row, col => ∃ x ∈ s.dirty, x.valid = false ∧ row = x.row ∧ col = some x.col
  | _, _, _ => False

/-- `P` is kept by every statement of the bodies but those of INIT. -/
structure BodyRule (P : State → Prop) (R : Raise → State → Prop) : Prop extends BusRule P R where
  backlight : ∀ s e, P s → P { s with bl := e }
  clear : ∀ s, P s → P (clearTail s)
  home : ∀ s, P s → P ({ s with cursor := ⟨0, 0⟩ }.delay .homeSettle)
  refreshed : ∀ s, P s → P { s with dirty := [] }
  cell : ∀ x v s, x.valid = true → P s → P (setCell x v s)
  refuse : ∀ r s, P s → R (.refuse r) s

/-- Every body but INIT's keeps what the statements keep, and raises only TransportError, a refusal, or one of its invalid coordinates. -/
theorem bodyOf_sat {P : State → Prop} {R : Raise → State → Prop} (h : BodyRule P R) {i : Instr} (hi : ∀ a, i ≠ .init a) {s : State}
    (hinv : ∀ row col, reportsInvalid s i row col → ∀ t, P t → R (.coordinate row col) t) (hs : P s) : (bodyOf i s).Sat P R := by
  cases i
  case init a => exact absurd rfl (hi a)
  case setRow w a text =>
    exact setRowBody_sat text h.cell (h.refuse _ s hs) (fun hw ha => hinv _ _ ⟨hw, ha, rfl, rfl⟩ s hs) hs
  case refresh =>
    exact (refreshEntries_sat h.toBusRule (fun x hx hv => hinv _ _ ⟨x, hx, hv, rfl, rfl⟩) hs).andThen h.refreshed
  case clear => exact clearBody_sat h.toBusRule h.clear hs
  case home => exact (send_sat h.toBusRule _ _ hs).andThen h.home
  case setBacklight e => exact send_sat h.toBusRule _ _ (h.backlight s e hs)
  case reserved => exact h.refuse _ s hs
  case setEntryMode | setDisplayControl | setShift | setFunction | setCgramAddr | writeData => exact send_sat h.toBusRule _ _ hs
  all_goals exact sendWord_sat h.toBusRule _ hs

/-- The same of every body, for what INIT's own statements keep as well. -/
theorem bodyOf_sat_all {P : State → Prop} {R : Raise → State → Prop} (h : BodyRule P R) (hreset : ∀ a s, P s → P (initReset a s))
    (hstate : ∀ q s, P s → P { s with initState := q }) (hdelay : ∀ k s, P s → P (s.delay k)) {i : Instr} {s : State}
    (hinv : ∀ row col, reportsInvalid s i row col → ∀ t, P t → R (.coordinate row col) t) (hs : P s) : (bodyOf i s).Sat P R := by
  by_cases hi : ∃ a, i = .init a
  · obtain ⟨a, rfl⟩ := hi
    exact initBody_sat h.toBusRule hdelay h.clear (hstate _) (hstate _ _ (hdelay _ _ (hreset a s hs)))
  · exact bodyOf_sat h (fun a ha => hi ⟨a, ha⟩) hinv hs

/-- A request ends as its body's run does, or as a run that refuses at once. -/
theorem exec_eq_finish {D : State → Prop} {R : Raise → State → Prop} {i : Instr} {s : State} (hbody : (bodyOf i s).Sat D R)
    (hrefuse : ∀ r, R (.refuse r) s) : ∃ r : Run, exec i s = .next r.finish ∧ r.Sat D R := by
  rw [exec_eq]
  rcases runRequest_cases (needsReady i) (bodyOf i) s with ⟨x, -, e⟩ | ⟨-, -, e⟩
  · exact ⟨.raised (.refuse x) s, by rw [e]; rfl, hrefuse x⟩
  · exact ⟨bodyOf i s, by rw [e], hbody⟩

end Sys2Proof.Machine
end

section
/-! SUPPORT. What a step does, by the input it takes. -/

namespace Sys2Proof.Machine

theorem step_nil {s : State} (h : s.inputs = []) : step s = .next s := by
  simp [step, fetch, h, idle]

theorem step_reset {s : State} {rest : List Input} (h : s.inputs = .reset :: rest) : step s = .next s.popInput.resetInput := by
  simp [step, fetch, h, takeReset, State.popInput]

theorem step_instr {s : State} {c : Code} {i : Instr} {rest : List Input} (h : s.inputs = .code c :: rest)
    (hc : decode c = .instr i) : step s = exec i s.popInput := by
  simp [step, fetch, h, hc, State.popInput]

theorem step_rejected {s : State} {c : Code} {e : DecodeError} {rest : List Input} (h : s.inputs = .code c :: rest)
    (hc : decode c = .rejected e) : step s = .next (refuseEncoding (rejectReason e) s.popInput) := by
  simp [step, fetch, h, hc, refuseRejected, State.popInput]

/-- Everything a step on a code can be: the instruction run, or the code refused. -/
theorem step_code_cases {s t : State} {c : Code} {rest : List Input} (h : s.inputs = .code c :: rest) (hst : step s = .next t) :
    (∃ i, decode c = .instr i ∧ exec i s.popInput = .next t) ∨
    (∃ e, decode c = .rejected e ∧ t = refuseEncoding (rejectReason e) s.popInput) := by
  cases hc : decode c with
  | instr i => exact .inl ⟨i, rfl, (step_instr h hc).symm.trans hst⟩
  | rejected e => exact .inr ⟨e, rfl, (Host.Outcome.next.inj ((step_rejected h hc).symm.trans hst)).symm⟩

/-- Everything a step can be. -/
theorem step_cases {s t : State} (hst : step s = .next t) :
    (s.inputs = [] ∧ t = s) ∨
    (∃ rest, s.inputs = .reset :: rest ∧ t = s.popInput.resetInput) ∨
    (∃ c rest, s.inputs = .code c :: rest ∧
      ((∃ i, decode c = .instr i ∧ exec i s.popInput = .next t) ∨
       (∃ e, decode c = .rejected e ∧ t = refuseEncoding (rejectReason e) s.popInput))) := by
  cases h : s.inputs with
  | nil => exact .inl ⟨rfl, (Host.Outcome.next.inj ((step_nil h).symm.trans hst)).symm⟩
  | cons x rest =>
    cases x with
    | reset => exact .inr (.inl ⟨rest, rfl, (Host.Outcome.next.inj ((step_reset h).symm.trans hst)).symm⟩)
    | code c => exact .inr (.inr ⟨c, rest, rfl, step_code_cases h hst⟩)

end Sys2Proof.Machine
end

section
/-! The invariant of 10_state.md R26 and R32: it holds at reset and every step keeps it. -/

namespace Sys2Proof.Machine

/-- The invariant reads the configuration, the grid, the dirty list and the cursor only. -/
theorem State.Inv.congr {s t : State} (h : s.Inv) (hcfg : t.cfg = s.cfg) (hgrid : t.grid = s.grid) (hdirty : t.dirty = s.dirty)
    (hcursor : t.cursor = s.cursor) : t.Inv := by
  unfold State.Inv
  rw [hcfg, hgrid, hdirty, hcursor]
  exact h

theorem State.Inv.cfg_wf {s : State} (h : s.Inv) : s.cfg.wf = true := h.1

theorem State.Inv.dirty_valid {s : State} (h : s.Inv) : ∀ x ∈ s.dirty, x.valid = true := by
  obtain ⟨-, -, -, hvalid, -⟩ := h
  exact hvalid

theorem State.Inv.cursor_eq {s : State} (h : s.Inv) : s.cursor = ⟨0, 0⟩ := by
  obtain ⟨-, -, -, -, -, hcursor⟩ := h
  exact hcursor

/-- A state with nothing listed, nothing dirty and the cursor at the origin has it. -/
theorem State.inv_of_blank {s : State} (hcfg : s.cfg.wf = true) (hgrid : s.grid = []) (hdirty : s.dirty = [])
    (hcursor : s.cursor = ⟨0, 0⟩) : s.Inv :=
  ⟨hcfg, by rw [hgrid]; rfl, by simp [hgrid], by simp [hdirty], by simp [hdirty], hcursor⟩

theorem State.Inv.writeCell {s : State} (h : s.Inv) {x : Coord} (hx : x.valid = true) (v : Byte) : (s.writeCell x v).Inv := by
  obtain ⟨hcfg, hwf, hcells, hvalid, hnodup, hcursor⟩ := h
  refine ⟨hcfg, Memory.wf_write hwf, fun c hc => ?_, hvalid, hnodup, hcursor⟩
  rcases Memory.mem_write hc with rfl | hc
  · exact Coord.cell_lt hx
  · exact hcells c hc

/-- No entry is added twice (43_display_memory_ops.md R185). -/
theorem State.Inv.markDirty {s : State} (h : s.Inv) {x : Coord} (hx : x.valid = true) : (s.markDirty x).Inv := by
  unfold State.markDirty
  split
  · exact h
  · next hnew =>
    obtain ⟨hcfg, hwf, hcells, hvalid, hnodup, hcursor⟩ := h
    refine ⟨hcfg, hwf, hcells, fun y hy => ?_, ?_, hcursor⟩
    · rcases List.mem_append.1 hy with hy | hy
      · exact hvalid y hy
      · rwa [List.mem_singleton.1 hy]
    · exact hnodup.append (List.nodup_singleton x) (by simpa using hnew)

theorem State.Inv.setCell {s : State} (h : s.Inv) {x : Coord} (hx : x.valid = true) (v : Byte) : (setCell x v s).Inv := by
  unfold Machine.setCell
  split
  · exact h
  · exact (h.writeCell hx v).markDirty hx

theorem State.Inv.dirtyEmptied {s : State} (h : s.Inv) : State.Inv { s with dirty := [] } := by
  obtain ⟨hcfg, hwf, hcells, -, -, hcursor⟩ := h
  exact ⟨hcfg, hwf, hcells, by simp, List.nodup_nil, hcursor⟩

theorem State.Inv.clearTail {s : State} (h : s.Inv) : (clearTail s).Inv := by
  cases hm : s.cfg.clearResetsMirror with
  | true => exact State.inv_of_blank (by simpa using h.cfg_wf) (by simp [hm]) (by simp) (by simp)
  | false => exact h.dirtyEmptied.congr (by simp) (by simp [hm]) (by simp) (by simp [h.cursor_eq])

/-- Every statement of every body keeps the invariant. -/
theorem inv_bodyRule : BodyRule State.Inv fun _ => State.Inv where
  ack _ _ h _ := h
  nack _ _ h _ := h
  backlight _ _ h := h
  clear _ h := h.clearTail
  home _ h := h.congr rfl rfl rfl h.cursor_eq.symm
  refreshed _ h := h.dirtyEmptied
  cell _ v _ hx h := h.setCell hx v
  refuse _ _ h := h

theorem exec_inv {i : Instr} {s t : State} (h : s.Inv) (he : exec i s = .next t) : t.Inv := by
  have hbody : (bodyOf i s).Sat State.Inv fun _ => State.Inv :=
    bodyOf_sat_all inv_bodyRule (fun _ _ hs => State.inv_of_blank hs.cfg_wf rfl rfl rfl) (fun _ _ hs => hs) (fun _ _ hs => hs)
      (fun _ _ _ _ ht => ht) h
  obtain ⟨r, hr, hsat⟩ := exec_eq_finish hbody fun _ => h
  obtain rfl : r.finish = t := Host.Outcome.next.inj (hr.symm.trans he)
  exact hsat.finish (fun _ hd => hd) fun e u hu => hu.congr (by simp) (by simp) (by simp) (by simp)

/-- Settles O37: RESET leaves a blank grid, a rejected code only a status, and every statement of every body keeps the invariant. -/
theorem stepKeepsTheInvariant : Obligations.StepKeepsTheInvariant := by
  unfold Obligations.StepKeepsTheInvariant
  intro s t h hst
  have hpop : s.popInput.Inv := h
  rcases step_cases hst with ⟨-, rfl⟩ | ⟨rest, -, rfl⟩ | ⟨c, rest, -, ⟨i, -, he⟩ | ⟨e, -, rfl⟩⟩
  · exact h
  · exact State.inv_of_blank h.cfg_wf rfl rfl rfl
  · exact exec_inv hpop he
  · rcases refuseEncoding_cases (rejectReason e) s.popInput with ⟨-, hr⟩ | ⟨-, hr⟩ <;> rw [hr] <;> exact hpop

/-- Settles O36: the reset state is blank. -/
theorem resetStateMeetsTheInvariant : Obligations.ResetStateMeetsTheInvariant :=
  State.inv_of_blank Config.default_wf rfl rfl rfl

/-- Settles O34: each field by computation, and an unlisted cell reads SPACE. -/
theorem resetStateValues : Obligations.ResetStateValues :=
  ⟨rfl, rfl, rfl, rfl, rfl, rfl, fun x => Memory.read_nil _ x.cell, rfl, rfl, rfl⟩

end Sys2Proof.Machine
end

section
/-! SUPPORT. What a request adds to the trace and what it leaves alone, whatever its outcome (10_state.md R34, R36; 60_exceptions.md R235). -/

namespace Sys2Proof.Machine

/-- No event of the list is a NACKed write. -/
def AllAcked (evs : List Event) : Prop := ∀ e ∈ evs, e.isNack = false

theorem AllAcked.not_exists {evs : List Event} (h : AllAcked evs) : ¬ ∃ e ∈ evs, e.isNack = true :=
  fun ⟨e, he, hn⟩ => by simp [h e he] at hn

theorem AllAcked.append {as bs : List Event} (ha : AllAcked as) (hb : AllAcked bs) : AllAcked (as ++ bs) :=
  fun e he => (List.mem_append.1 he).elim (ha e) (hb e)

/-- `t` comes from `s` by events added to the trace and by changes of the fields that a body writes: `link_unknown` is only cleared. -/
structure State.Extends (s t : State) (evs : List Event) : Prop where
  cfg : t.cfg = s.cfg
  inputs : t.inputs = s.inputs
  replies : t.replies = s.replies
  halted : t.halted = s.halted
  trace : t.trace = s.trace ++ evs
  link : t.linkUnknown = true → s.linkUnknown = true

theorem State.Extends.refl (s : State) : s.Extends s [] := by constructor <;> simp

theorem State.Extends.trans {s t u : State} {as bs : List Event} (h : s.Extends t as) (h' : t.Extends u bs) :
    s.Extends u (as ++ bs) where
  cfg := h'.cfg.trans h.cfg
  inputs := h'.inputs.trans h.inputs
  replies := h'.replies.trans h.replies
  halted := h'.halted.trans h.halted
  trace := by rw [h'.trace, h.trace, List.append_assoc]
  link hu := h.link (h'.link hu)

theorem State.Extends.newEvents {s t : State} {evs : List Event} (h : s.Extends t evs) : newEvents s t = evs := by
  simp [Machine.newEvents, h.trace]

/-- A body came from `s` to `t` with every write ACKed. -/
def Ran (s t : State) : Prop := ∃ evs, s.Extends t evs ∧ AllAcked evs

/-- A body came from `s` to `t`, where it raised: TransportError at a NACKed write, the last and only one, any other error with none. -/
def Failed (s : State) : Raise → State → Prop
  | .transport, t => ∃ pre dev b, s.Extends t (pre ++ [.write dev b .nack]) ∧ AllAcked pre
  | .coordinate _ _, t => Ran s t
  | .refuse _, t => Ran s t

theorem Ran.refl (s : State) : Ran s s := ⟨[], .refl s, by simp [AllAcked]⟩

theorem Ran.trans {s t u : State} (h : Ran s t) (h' : Ran t u) : Ran s u := by
  obtain ⟨as, hext, ha⟩ := h
  obtain ⟨bs, hext', hb⟩ := h'
  exact ⟨as ++ bs, hext.trans hext', ha.append hb⟩

theorem ran_delay (s : State) (k : DelayName) : Ran s (s.delay k) :=
  ⟨[.delay k], by constructor <;> simp, by simp [AllAcked, Event.isNack]⟩

theorem ran_clearTail (s : State) : Ran s (clearTail s) :=
  ⟨[.delay .clearSettle], by constructor <;> simp, by simp [AllAcked, Event.isNack]⟩

theorem ran_written {s : State} (h : s.answerAt 0 = .ack) (b : Byte) : Ran s (s.written b) :=
  ⟨[.write s.devAddr b .ack], by constructor <;> simp [h], by simp [AllAcked, Event.isNack]⟩

/-- A statement that adds no event and does not set `link_unknown`. -/
theorem Ran.of_silent {s t : State} (h : s.Extends t []) : Ran s t := ⟨[], h, by simp [AllAcked]⟩

theorem extends_written_nack {s : State} (h : s.answerAt 0 = .nack) (b : Byte) :
    s.Extends (s.written b) [.write s.devAddr b .nack] := by constructor <;> simp [h]

theorem ran_bodyRule (s : State) : BodyRule (Ran s) (Failed s) where
  ack _ b h ha := h.trans (ran_written ha b)
  nack t b h ha := by
    obtain ⟨evs, hext, hall⟩ := h
    exact ⟨evs, t.devAddr, b, hext.trans (extends_written_nack ha b), hall⟩
  backlight _ _ h := h.trans (.of_silent (by constructor <;> simp))
  clear t h := h.trans (ran_clearTail t)
  home t h := (h.trans (.of_silent (t := { t with cursor := ⟨0, 0⟩ }) (by constructor <;> simp))).trans (ran_delay _ _)
  refreshed _ h := h.trans (.of_silent (by constructor <;> simp))
  cell _ _ _ _ h := h.trans (.of_silent (by constructor <;> simp))
  refuse _ _ h := h

theorem bodyOf_ran (i : Instr) (s : State) : (bodyOf i s).Sat (Ran s) (Failed s) :=
  bodyOf_sat_all (ran_bodyRule s) (fun _ _ h => h.trans (.of_silent (by constructor <;> simp)))
    (fun _ _ h => h.trans (.of_silent (by constructor <;> simp))) (fun k t h => h.trans (ran_delay t k)) (fun _ _ _ _ h => h) (.refl s)

/-- `t` is where a request from `s` ends: its status, and how far its body came. -/
inductive Ended (s : State) : State → Prop
  | ok {u : State} {evs : List Event} (h : s.Extends u evs) (hall : AllAcked evs) : Ended s (u.reply .ok)
  | nacked {u : State} {pre : List Event} {dev b : Byte} (h : s.Extends u (pre ++ [.write dev b .nack])) (hpre : AllAcked pre) :
    Ended s u.transportFailed
  | invalid {u : State} {evs : List Event} {row : Nat} {col : Option Nat} (h : s.Extends u evs) (hall : AllAcked evs) :
    Ended s (u.takeError (.coordinate row col))
  | refused {u : State} {evs : List Event} {r : Reason} (h : s.Extends u evs) (hall : AllAcked evs) : Ended s (u.reply (.refused r))

theorem ended_of_sat {s : State} {r : Run} (h : r.Sat (Ran s) (Failed s)) : Ended s r.finish :=
  h.finish (fun _ ⟨_, hext, hall⟩ => .ok hext hall) fun e u hu => match e, hu with
    | .transport, ⟨_, _, _, hext, hpre⟩ => Ended.nacked (u := u) hext hpre
    | .coordinate _ _, ⟨_, hext, hall⟩ => .invalid hext hall
    | .refuse _, ⟨_, hext, hall⟩ => Ended.refused (u := u) hext hall

theorem exec_ended {i : Instr} {s t : State} (he : exec i s = .next t) : Ended s t := by
  obtain ⟨r, hr, hsat⟩ := exec_eq_finish (bodyOf_ran i s) fun _ => .refl s
  obtain rfl : r.finish = t := Host.Outcome.next.inj (hr.symm.trans he)
  exact ended_of_sat hsat

theorem refuseEncoding_ended (x : Reason) (s : State) : Ended s (refuseEncoding x s) := by
  rcases refuseEncoding_cases x s with ⟨-, h⟩ | ⟨-, h⟩ <;> rw [h] <;> exact .refused (.refl s) (by simp [AllAcked])

theorem step_code_ended {s t : State} {c : Code} {rest : List Input} (h : s.inputs = .code c :: rest) (hst : step s = .next t) :
    Ended s.popInput t := by
  rcases step_code_cases h hst with ⟨i, -, he⟩ | ⟨e, -, rfl⟩
  · exact exec_ended he
  · exact refuseEncoding_ended _ _

end Sys2Proof.Machine
end

section
/-! One status per request, what sets `halted`, and the record of a TransportError (10_state.md R28, R29; 60_exceptions.md R230 to R238). -/

namespace Sys2Proof.Machine

theorem State.gate_of_halted {s : State} (h : s.halted = true) (needsReady : Bool) : s.gate needsReady = some .halted := by
  simp [State.gate, h]

/-- While halted every instruction is refused (10_state.md R29). -/
theorem exec_of_halted {s : State} (h : s.halted = true) (i : Instr) : exec i s = .next (s.reply (.refused .halted)) := by
  rw [exec_eq, runRequest_of_gate_some (State.gate_of_halted h _)]

theorem step_code_of_halted {s : State} {c : Code} {rest : List Input} (hh : s.halted = true) (h : s.inputs = .code c :: rest) :
    step s = .next (s.popInput.reply (.refused .halted)) := by
  cases hc : decode c with
  | instr i => rw [step_instr h hc, exec_of_halted (s := s.popInput) hh]
  | rejected e => rw [step_rejected h hc]; simp [refuseEncoding, hh]

/-- A request from a state that is not halted enters the halted state exactly with an InvalidCoordinate (60_exceptions.md R238). -/
theorem Ended.halted_iff {s t : State} (h : Ended s t) (hh : s.halted = false) :
    t.halted = true ↔ ∃ row col, t.replies = s.replies ++ [.invalidCoordinate row col] := by
  cases h with
  | ok hext => simp [hext.halted, hext.replies, hh]
  | nacked hext => simp [hext.halted, hext.replies, hh]
  | invalid hext => simp [hext.replies]
  | refused hext => simp [hext.halted, hext.replies, hh]

/-- Settles O12: HALTED is the first pre-check of every code, and a request sets `halted` only where it takes an InvalidCoordinate. -/
theorem haltedUntilReset : Obligations.HaltedUntilReset := by
  unfold Obligations.HaltedUntilReset
  refine ⟨fun s c rest hh h => ?_, fun s t hh hst ht => ?_, fun s t hh hst => ?_⟩
  · rw [step_code_of_halted hh h]
    simp [State.popInput, State.reply, h]
  · rcases step_cases hst with ⟨-, rfl⟩ | ⟨rest, h, -⟩ | ⟨c, rest, h, -⟩
    · rw [hh] at ht; cases ht
    · rw [h]; rfl
    · obtain rfl := Host.Outcome.next.inj ((step_code_of_halted hh h).symm.trans hst)
      simp [hh] at ht
  · rcases step_cases hst with ⟨-, rfl⟩ | ⟨rest, -, rfl⟩ | ⟨c, rest, h, -⟩
    · simp [hh]
    · simp
    · exact (step_code_ended h hst).halted_iff hh

/-- The error is no InvalidCoordinate but one of those of `C`. -/
def RaisesWithin (C : Nat → Option Nat → Prop) (e : Raise) : Prop := ∀ row col, e = .coordinate row col → C row col

/-- An instruction raises InvalidCoordinate only with a coordinate it can report. -/
theorem bodyOf_raisesWithin (i : Instr) (s : State) :
    (bodyOf i s).Sat (fun _ => True) fun e _ => RaisesWithin (reportsInvalid s i) e := by
  have hrule : BodyRule (fun _ => True) fun e _ => RaisesWithin (reportsInvalid s i) e :=
    { ack := by simp, nack := by simp [RaisesWithin], backlight := by simp, clear := by simp, home := by simp, refreshed := by simp,
      cell := by simp, refuse := by simp [RaisesWithin] }
  refine bodyOf_sat_all hrule (by simp) (by simp) (by simp) (fun row col h _ _ row' col' he => ?_) trivial
  obtain ⟨rfl, rfl⟩ := Raise.coordinate.inj he
  exact h

/-- A status INVALID_COORDINATE carries a coordinate the instruction can report. -/
theorem exec_reportsInvalid {i : Instr} {s t : State} {row : Nat} {col : Option Nat} (he : exec i s = .next t)
    (ht : t.replies = s.replies ++ [.invalidCoordinate row col]) : reportsInvalid s i row col := by
  obtain ⟨r, hr, hsat⟩ := exec_eq_finish (bodyOf_raisesWithin i s) fun _ => by simp [RaisesWithin]
  obtain rfl : r.finish = t := Host.Outcome.next.inj (hr.symm.trans he)
  have hlast : r.finish.replies.getLast? = some (.invalidCoordinate row col) := by simp [ht]
  match r, hsat with
  | .done u, _ => simp at hlast
  | .raised .transport u, _ => simp at hlast
  | .raised (.refuse x) u, _ => simp at hlast
  | .raised (.coordinate row' col') u, hsat =>
    obtain ⟨rfl, rfl⟩ : row' = row ∧ col' = col := by simpa using hlast
    exact hsat _ _ rfl

/-- Settles O38: with valid entries REFRESH can report no coordinate, which leaves SET_ROW. -/
theorem onlySetRowReportsAnInvalidCoordinate : Obligations.OnlySetRowReportsAnInvalidCoordinate := by
  unfold Obligations.OnlySetRowReportsAnInvalidCoordinate
  intro s t i row col hinv he ht
  have hreports := exec_reportsInvalid he ht
  cases i with
  | setRow w a text =>
    obtain ⟨rfl, ha, rfl, rfl⟩ := hreports
    exact ⟨a, text, rfl, rfl, ha, rfl⟩
  | refresh =>
    obtain ⟨x, hx, hbad, -⟩ := hreports
    simp [hinv.dirty_valid x hx] at hbad
  | _ => exact hreports.elim

/-- Every step answers a next state. -/
theorem step_total (s : State) : ∃ t, step s = .next t := by
  match h : s.inputs with
  | [] => exact ⟨_, step_nil h⟩
  | .reset :: rest => exact ⟨_, step_reset h⟩
  | .code c :: rest =>
    match hc : decode c with
    | .instr i => exact ⟨_, (step_instr h hc).trans (exec_eq i _)⟩
    | .rejected e => exact ⟨_, step_rejected h hc⟩

/-- A request returns one status, only adds to the trace, and leaves the inputs after it and the configuration. -/
theorem Ended.record {s t : State} (h : Ended s t) :
    ∃ st evs, t.replies = s.replies ++ [st] ∧ t.trace = s.trace ++ evs ∧ t.inputs = s.inputs ∧ t.cfg = s.cfg := by
  cases h with
  | ok hext => exact ⟨.ok, _, by simp [hext.replies], hext.trace, hext.inputs, hext.cfg⟩
  | nacked hext => exact ⟨.transportError, _, by simp [hext.replies], hext.trace, hext.inputs, hext.cfg⟩
  | @invalid _ _ row col hext => exact ⟨.invalidCoordinate row col, _, by simp [hext.replies], hext.trace, hext.inputs, hext.cfg⟩
  | @refused _ _ r hext => exact ⟨.refused r, _, by simp [hext.replies], hext.trace, hext.inputs, hext.cfg⟩

/-- Settles O39: whatever a code's outcome, its request ended with one status. -/
theorem everyRequestReturnsOneStatus : Obligations.EveryRequestReturnsOneStatus := by
  unfold Obligations.EveryRequestReturnsOneStatus
  refine ⟨step_total, fun s t c rest h hst => ?_⟩
  obtain ⟨st, evs, hreplies, htrace, hinputs, hcfg⟩ := (step_code_ended h hst).record
  exact ⟨st, evs, hreplies, htrace, by simp [hinputs, h], hcfg⟩

/-- Apart from the request that ended at a NACK, none reports TransportError, has a NACKed event, or sets `link_unknown`. -/
theorem Ended.transport_cases {s t : State} (h : Ended s t) :
    (t.replies = s.replies ++ [.transportError] ∧ t.linkUnknown = true ∧
      ∃ pre dev b, newEvents s t = pre ++ [.write dev b .nack] ∧ AllAcked pre) ∨
    (t.replies ≠ s.replies ++ [.transportError] ∧ AllAcked (newEvents s t) ∧ (t.linkUnknown = true → s.linkUnknown = true)) := by
  have hquiet {u : State} {evs : List Event} (hext : s.Extends u evs) (hall : AllAcked evs) : AllAcked (newEvents s u) := by
    rwa [hext.newEvents]
  cases h with
  | ok hext hall => exact .inr ⟨by simp [hext.replies], (hquiet hext hall :), hext.link⟩
  | nacked hext hpre => exact .inl ⟨by simp [hext.replies], rfl, _, _, _, hext.newEvents, hpre⟩
  | invalid hext hall => exact .inr ⟨by simp [hext.replies], (hquiet hext hall :), hext.link⟩
  | refused hext hall => exact .inr ⟨by simp [hext.replies], (hquiet hext hall :), hext.link⟩

/-- Settles O40: a request ended at a NACK, its last event, or it had none. -/
theorem transportErrorRecord : Obligations.TransportErrorRecord := by
  unfold Obligations.TransportErrorRecord
  intro i s t _ _ he
  rcases (exec_ended he).transport_cases with ⟨hreply, hlink, pre, dev, b, hnew, hpre⟩ | ⟨hreply, hall, hlink⟩
  · exact ⟨⟨fun _ => ⟨.write dev b .nack, by simp [hnew], rfl⟩, fun _ => hreply⟩, fun _ => ⟨hlink, pre, dev, b, hnew, hpre⟩,
      fun _ _ => hreply⟩
  · exact ⟨⟨fun h => absurd h hreply, fun h => absurd h hall.not_exists⟩, fun h => absurd h hreply,
      fun hs ht => by simp [hlink ht] at hs⟩

end Sys2Proof.Machine
end

section
/-! SUPPORT. Which codes are an INIT (30_encoding.md R83, R84, R94). -/

namespace Sys2Proof

theorem ifClean_eq_instr_iff {ok : Bool} {i j : Instr} : ifClean ok i = .instr j ↔ ok = true ∧ i = j := by
  cases ok <;> simp [ifClean]

theorem decodeLcd_ne_init (w : LcdWord) (a : Byte) : decodeLcd w ≠ .init a := by
  unfold decodeLcd
  split_ifs <;> simp

theorem decode_encode_init (a : Byte) : decode (encode (.init a)) = .instr (.init a) := by
  simp [decode, encode, decodeRequest, ifClean]

/-- INIT has one code for each address: op 0 and every other field zero or empty. -/
theorem decode_eq_init_iff {c : Code} {a : Byte} : decode c = .instr (.init a) ↔ c = encode (.init a) := by
  refine ⟨fun h => ?_, fun h => by rw [h, decode_encode_init]⟩
  cases c with
  | lcd w => exact absurd (Decoded.instr.inj h) (decodeLcd_ne_init w a)
  | request w p =>
    have hfields : reqOp w = 0x0 ∧ reqZ w = 0 ∧ reqWrap w = false ∧ p = [] ∧ reqArg w = a := by
      by_cases hop : reqOp w = 0x0
      · simp only [decode, decodeRequest, hop, if_pos, ifClean_eq_instr_iff] at h
        simpa [hop, and_assoc] using h
      · simp only [decode, decodeRequest, if_neg hop] at h
        simp only [ite_eq_iff, ifClean_eq_instr_iff, Decoded.instr.injEq, reduceCtorEq, and_false, or_self] at h
    obtain ⟨hop, hz, hw, rfl, ha⟩ := hfields
    have hword := packReq16_fields w
    rw [hop, hz, hw, ha] at hword
    rw [encode, hword]

end Sys2Proof
end

section
/-! Who writes `init_state`, and what comes before READY (10_state.md R24; 70_reset_and_hazards.md R264). -/

namespace Sys2Proof.Machine

/-- Every instruction but INIT leaves `init_state`. -/
theorem exec_initState {i : Instr} {s t : State} (hi : ∀ a, i ≠ .init a) (he : exec i s = .next t) : t.initState = s.initState := by
  have hrule : BodyRule (fun u => u.initState = s.initState) fun _ u => u.initState = s.initState :=
    { ack := fun _ _ h _ => h, nack := fun _ _ h _ => h, backlight := fun _ _ h => h, clear := by simp, home := fun _ h => h,
      refreshed := fun _ h => h, cell := by simp, refuse := fun _ _ h => h }
  obtain ⟨r, hr, hsat⟩ := exec_eq_finish (bodyOf_sat hrule hi (fun _ _ _ _ h => h) rfl) fun _ => rfl
  obtain rfl : r.finish = t := Host.Outcome.next.inj (hr.symm.trans he)
  exact hsat.finish (Q := fun u => u.initState = s.initState) (fun _ h => h) fun _ _ h => by simpa using h

/-- INIT's body is in FORCING until its end (42_initialization.md R162, R166, R168). -/
theorem initBody_initState (a : Byte) (s : State) :
    (initBody a s).Sat (fun t => t.initState = .ready ∧ t.replies = s.replies)
      fun e t => e = .transport ∧ t.initState = .forcing ∧ t.replies = s.replies := by
  have hbus : BusRule (fun t => t.initState = .forcing ∧ t.replies = s.replies)
      fun e t => e = .transport ∧ t.initState = .forcing ∧ t.replies = s.replies :=
    { ack := fun _ _ h _ => h, nack := fun _ _ h _ => ⟨rfl, h⟩ }
  exact initBody_sat hbus (fun _ _ h => h) (by simp) (fun _ h => ⟨rfl, h.2⟩) ⟨rfl, rfl⟩

/-- Where an INIT leaves `init_state`. -/
theorem exec_init_initState {a : Byte} {s t : State} (he : exec (.init a) s = .next t) :
    (t.replies = s.replies ++ [.ok] ∧ t.initState = .ready) ∨
    (t.replies = s.replies ++ [.transportError] ∧ t.initState = .forcing) ∨
    (t.replies = s.replies ++ [.refused .halted] ∧ t.initState = s.initState) := by
  cases hh : s.halted with
  | true =>
    obtain rfl := Host.Outcome.next.inj ((exec_of_halted hh _).symm.trans he)
    exact .inr (.inr ⟨rfl, rfl⟩)
  | false =>
    rw [exec_eq, needsReady, runRequest_of_gate_none (State.gate_false hh)] at he
    obtain rfl := Host.Outcome.next.inj he
    have hsat := initBody_initState a s
    cases hr : initBody a s with
    | done u =>
      obtain ⟨hready, hreplies⟩ : u.initState = .ready ∧ u.replies = s.replies := by simpa [hr, Run.Sat] using hsat
      exact .inl ⟨by simp [bodyOf, hr, hreplies], by simp [bodyOf, hr, hready]⟩
    | raised e u =>
      obtain ⟨rfl, hforcing, hreplies⟩ : e = .transport ∧ u.initState = .forcing ∧ u.replies = s.replies := by
        simpa [hr, Run.Sat] using hsat
      exact .inr (.inl ⟨by simp [bodyOf, hr, hreplies], by simp [bodyOf, hr, hforcing]⟩)

theorem step_initState {s t : State} (hst : step s = .next t) (hreset : s.inputs.head? ≠ some .reset)
    (hinit : ∀ a, s.inputs.head? ≠ some (.code (encode (.init a)))) : t.initState = s.initState := by
  rcases step_cases hst with ⟨-, rfl⟩ | ⟨rest, h, -⟩ | ⟨c, rest, h, ⟨i, hc, he⟩ | ⟨e, -, rfl⟩⟩
  · rfl
  · simp [h] at hreset
  · refine exec_initState (s := s.popInput) (fun a ha => hinit a ?_) he
    rw [h, ← decode_eq_init_iff.1 (ha ▸ hc)]
    rfl
  · rcases refuseEncoding_cases (rejectReason e) s.popInput with ⟨-, hr⟩ | ⟨-, hr⟩ <;> rw [hr] <;> rfl

/-- Settles O41: no other body writes `init_state`, and INIT's has its three ends. -/
theorem onlyInitAndResetWriteInitState : Obligations.OnlyInitAndResetWriteInitState := by
  unfold Obligations.OnlyInitAndResetWriteInitState
  refine fun s t _ hst => ⟨fun hne => ?_, fun a ha => ?_⟩
  · by_contra hno
    rw [not_or, not_exists] at hno
    exact hne (step_initState hst hno.1 hno.2)
  · obtain ⟨rest, h⟩ := List.head?_eq_some_iff.1 ha
    rw [step_instr h (decode_encode_init a)] at hst
    exact exec_init_initState (s := s.popInput) hst

/-- An instruction other than INIT adds nothing to the trace unless the block accepts requests (60_exceptions.md R232, R233). -/
theorem exec_trace_of_not_accepts {i : Instr} {s t : State} (hi : ∀ a, i ≠ .init a) (hs : ¬ s.accepts) (he : exec i s = .next t) :
    t.trace = s.trace := by
  rw [exec_eq] at he
  obtain rfl := Host.Outcome.next.inj he
  rcases runRequest_cases (needsReady i) (bodyOf i) s with ⟨r, -, hr⟩ | ⟨hh, hready, hr⟩ <;> rw [hr]
  · rfl
  · cases i
    case init a => exact absurd rfl (hi a)
    case reserved => rfl
    all_goals exact absurd ⟨hh, hready rfl⟩ hs

/-- Settles O42: RESET and a refusal add no event, and every request but INIT and RESERVED waits for READY. -/
theorem noEventBeforeReadyButInits : Obligations.NoEventBeforeReadyButInits := by
  unfold Obligations.NoEventBeforeReadyButInits
  intro s t hst hs hinit
  rcases step_cases hst with ⟨-, rfl⟩ | ⟨rest, -, rfl⟩ | ⟨c, rest, h, ⟨i, hc, he⟩ | ⟨e, -, rfl⟩⟩
  · rfl
  · rfl
  · refine exec_trace_of_not_accepts (s := s.popInput) (fun a ha => hinit a ?_) hs he
    rw [h, ← decode_eq_init_iff.1 (ha ▸ hc)]
    rfl
  · rcases refuseEncoding_cases (rejectReason e) s.popInput with ⟨-, hr⟩ | ⟨-, hr⟩ <;> rw [hr] <;> rfl

end Sys2Proof.Machine
end

section
/-! No step reads the cursor or `link_unknown` (10_state.md R26, R28): erasing both before a body or after it is the same. -/

namespace Sys2Proof.Machine

/-- The state with the two fields that no step reads erased. -/
def State.eraseUnread (s : State) : State := { s with cursor := ⟨0, 0⟩, linkUnknown := false }

/-- States that are equal once erased differ in the two fields only. -/
theorem State.eq_of_eraseUnread_eq {t u : State} (h : u.eraseUnread = t.eraseUnread) :
    u = { t with cursor := u.cursor, linkUnknown := u.linkUnknown } := by
  cases t
  cases u
  simpa [State.eraseUnread] using h

/-- A run with a change made to the state it ends in. -/
def Run.map (f : State → State) : Run → Run
  | .done s => .done (f s)
  | .raised e s => .raised e (f s)

/-- A body that gives the same run, up to the erased fields, whatever they held. -/
def IgnoresUnread (body : State → Run) : Prop := ∀ s : State, body s.eraseUnread = (body s).map State.eraseUnread

theorem IgnoresUnread.andThen {f g : State → Run} (hf : IgnoresUnread f) (hg : IgnoresUnread g) :
    IgnoresUnread fun s => (f s).andThen g := fun s => by
  show (f s.eraseUnread).andThen g = ((f s).andThen g).map State.eraseUnread
  rw [hf s]
  cases f s with
  | done t => exact hg t
  | raised e t => rfl

theorem ignoresUnread_done {f : State → State} (h : ∀ s, f s.eraseUnread = (f s).eraseUnread) : IgnoresUnread fun s => .done (f s) :=
  fun s => congrArg Run.done (h s)

theorem ignoresUnread_raised (e : Raise) : IgnoresUnread (Run.raised e) := fun _ => rfl

theorem ignoresUnread_busWrite (b : Byte) : IgnoresUnread (busWrite b) := fun s => by
  have hanswer : s.eraseUnread.answerAt 0 = s.answerAt 0 := rfl
  unfold busWrite
  rw [hanswer]
  cases s.answerAt 0 <;> rfl

theorem ignoresUnread_write4bits (x : Byte) : IgnoresUnread (write4bits x) := fun s =>
  ((ignoresUnread_busWrite _).andThen (ignoresUnread_busWrite _)).andThen (ignoresUnread_busWrite _) s

theorem ignoresUnread_send (b : Byte) (m : Mode) : IgnoresUnread (send b m) := fun s =>
  (ignoresUnread_write4bits _).andThen (ignoresUnread_write4bits _) s

theorem ignoresUnread_refreshEntry (x : Coord) : IgnoresUnread (refreshEntry x) := fun s => by
  unfold refreshEntry
  split
  · exact (ignoresUnread_send _ _).andThen (fun t => ignoresUnread_send (t.cellAt x) .data t) s
  · rfl

theorem ignoresUnread_refreshEntries (xs : List Coord) : IgnoresUnread (refreshEntries xs) := by
  induction xs with
  | nil => exact fun _ => rfl
  | cons x xs ih => exact (ignoresUnread_refreshEntry x).andThen ih

theorem ignoresUnread_refreshBody : IgnoresUnread refreshBody := fun s =>
  (ignoresUnread_refreshEntries s.dirty).andThen (ignoresUnread_done (f := fun t => { t with dirty := [] }) fun _ => rfl) s

theorem clearTail_eraseUnread (s : State) : clearTail s.eraseUnread = (clearTail s).eraseUnread := by
  have hcfg : s.eraseUnread.cfg = s.cfg := rfl
  unfold clearTail
  simp only [hcfg]
  cases s.cfg.clearResetsMirror <;> rfl

theorem ignoresUnread_clearBody : IgnoresUnread clearBody := fun s =>
  (ignoresUnread_send _ _).andThen (ignoresUnread_done clearTail_eraseUnread) s

theorem ignoresUnread_homeBody : IgnoresUnread homeBody := fun s =>
  (ignoresUnread_send _ _).andThen
    (ignoresUnread_done (f := fun t => State.delay { t with cursor := ⟨0, 0⟩ } .homeSettle) fun _ => rfl) s

theorem setCell_eraseUnread (x : Coord) (v : Byte) (s : State) : setCell x v s.eraseUnread = (setCell x v s).eraseUnread := by
  have hcell : s.eraseUnread.cellAt x = s.cellAt x := rfl
  have hmark : ∀ t : State, t.eraseUnread.markDirty x = (t.markDirty x).eraseUnread := fun t => by
    have hdirty : t.eraseUnread.dirty = t.dirty := rfl
    unfold State.markDirty
    rw [hdirty]
    split <;> rfl
  unfold setCell
  rw [hcell]
  split
  · rfl
  · exact hmark (s.writeCell x v)

theorem setCells_eraseUnread (r c : Nat) (codes : List Byte) (s : State) :
    setCells r c codes s.eraseUnread = (setCells r c codes s).eraseUnread := by
  induction codes generalizing c s with
  | nil => rfl
  | cons v codes ih => rw [setCells, setCells, setCell_eraseUnread, ih]

theorem ignoresUnread_setRowBody (w : Bool) (a : Byte) (text : List Byte) : IgnoresUnread (setRowBody w a text) := fun s => by
  unfold setRowBody
  split
  · rfl
  · split
    · rfl
    · exact congrArg Run.done (setCells_eraseUnread _ _ _ s)

theorem ignoresUnread_initForce : IgnoresUnread initForce :=
  ((ignoresUnread_write4bits _).andThen fun s => ignoresUnread_write4bits 0x20 (s.delay .initNibbleDelay)).andThen
    (ignoresUnread_done fun _ => rfl)

theorem ignoresUnread_initBody (a : Byte) : IgnoresUnread (initBody a) := fun s =>
  (((ignoresUnread_initForce.andThen ignoresUnread_clearBody).andThen
    (fun t => ignoresUnread_send (encDispctl t.cfg initDisplayParam) .cmd t)).andThen
    (ignoresUnread_done (f := fun t => { t with initState := .ready }) fun _ => rfl)) (initWait (initReset a s))

theorem ignoresUnread_bodyOf (i : Instr) : IgnoresUnread (bodyOf i) := by
  cases i
  case init a => exact ignoresUnread_initBody a
  case setRow w a text => exact ignoresUnread_setRowBody w a text
  case refresh => exact ignoresUnread_refreshBody
  case clear => exact ignoresUnread_clearBody
  case home => exact ignoresUnread_homeBody
  case setBacklight e => exact fun s => ignoresUnread_send encNull .cmd { s with bl := e }
  case reserved => exact ignoresUnread_raised _
  all_goals exact fun s => ignoresUnread_send _ _ s

/-- TransportError writes `link_unknown`, so the end of a request is the same only once the fields are erased after it as well. -/
theorem finish_eraseUnread (r : Run) : (r.map State.eraseUnread).finish.eraseUnread = r.finish.eraseUnread := by
  cases r with
  | done t => rfl
  | raised e t => cases e <;> rfl

theorem runRequest_eraseUnread {body : State → Run} (h : IgnoresUnread body) (b : Bool) (s : State) :
    (runRequest b body s.eraseUnread).eraseUnread = (runRequest b body s).eraseUnread := by
  have hgate : s.eraseUnread.gate b = s.gate b := rfl
  unfold runRequest
  rw [hgate]
  cases s.gate b with
  | some r => rfl
  | none =>
    show (body s.eraseUnread).finish.eraseUnread = _
    rw [h s, finish_eraseUnread]

theorem step_eraseUnread {s t : State} (hst : step s = .next t) :
    ∃ u, step s.eraseUnread = .next u ∧ u.eraseUnread = t.eraseUnread := by
  rcases step_cases hst with ⟨h, rfl⟩ | ⟨rest, h, rfl⟩ | ⟨c, rest, h, ⟨i, hc, he⟩ | ⟨e, hc, rfl⟩⟩
  · exact ⟨_, step_nil (s := t.eraseUnread) h, rfl⟩
  · exact ⟨_, step_reset (s := s.eraseUnread) h, rfl⟩
  · rw [exec_eq] at he
    obtain rfl := Host.Outcome.next.inj he
    exact ⟨_, (step_instr (s := s.eraseUnread) h hc).trans (exec_eq i _), runRequest_eraseUnread (ignoresUnread_bodyOf i) _ s.popInput⟩
  · refine ⟨_, step_rejected (s := s.eraseUnread) h hc, ?_⟩
    rw [refuseEncoding_eq, refuseEncoding_eq]
    exact runRequest_eraseUnread (ignoresUnread_raised _) _ s.popInput

/-- Settles O46: the two states are the same once erased. -/
theorem cursorAndLinkUnknownAreNotRead : Obligations.CursorAndLinkUnknownAreNotRead := by
  unfold Obligations.CursorAndLinkUnknownAreNotRead
  intro s t u x b ht hu
  obtain ⟨v, hv, hvt⟩ := step_eraseUnread ht
  obtain ⟨w, hw, hwu⟩ := step_eraseUnread hu
  obtain rfl : v = w := Host.Outcome.next.inj (hv.symm.trans hw)
  exact ⟨_, _, State.eq_of_eraseUnread_eq (hwu.symm.trans hvt)⟩

end Sys2Proof.Machine
end

section
/-! SET_ROW and the cells that stay clean (43_display_memory_ops.md R182, R185; 10_state.md R28, R33). -/

namespace Sys2Proof.Machine

/-- The cells clean in `t` were clean in `s` and hold the same codes. -/
def CleanCellsKept (s t : State) : Prop := ∀ y : Coord, y.valid = true → y ∉ t.dirty → y ∉ s.dirty ∧ t.cellAt y = s.cellAt y

theorem CleanCellsKept.refl (s : State) : CleanCellsKept s s := fun _ _ hd => ⟨hd, rfl⟩

theorem State.mem_markDirty {s : State} {x y : Coord} : y ∈ (s.markDirty x).dirty ↔ y ∈ s.dirty ∨ y = x := by
  unfold State.markDirty
  split
  · next hx => exact ⟨.inl, fun h => h.elim id (· ▸ hx)⟩
  · simp

/-- Writing one cell leaves every other one. -/
theorem State.cellAt_writeCell_ne {s : State} {x y : Coord} (hx : x.valid = true) (hy : y.valid = true) (h : y ≠ x) (v : Byte) :
    (s.writeCell x v).cellAt y = s.cellAt y :=
  Memory.read_write_ne (fun he => h (Coord.cell_inj hy hx he)) s.grid

/-- A cell whose code changes is marked dirty. -/
theorem CleanCellsKept.setCell {s t : State} (h : CleanCellsKept s t) {x : Coord} (hx : x.valid = true) (v : Byte) :
    CleanCellsKept s (setCell x v t) := by
  unfold Machine.setCell
  split
  · exact h
  · intro y hy hd
    obtain ⟨hclean, hne⟩ : y ∉ t.dirty ∧ y ≠ x := by simpa [State.mem_markDirty] using hd
    obtain ⟨hs, hcell⟩ := h y hy hclean
    have hmark : ((t.writeCell x v).markDirty x).cellAt y = (t.writeCell x v).cellAt y := by simp [State.cellAt]
    exact ⟨hs, by rw [hmark, State.cellAt_writeCell_ne hx hy hne, hcell]⟩

theorem CleanCellsKept.congr {s t u : State} (h : CleanCellsKept s t) (hcfg : u.cfg = t.cfg) (hgrid : u.grid = t.grid)
    (hdirty : u.dirty = t.dirty) : CleanCellsKept s u := by
  intro y hy hd
  obtain ⟨hs, hcell⟩ := h y hy (hdirty ▸ hd)
  exact ⟨hs, by rw [State.cellAt, hcfg, hgrid]; exact hcell⟩

/-- What SET_ROW leaves of the mirror's claim: `link_unknown`, and the clean cells. -/
def ClaimKept (s t : State) : Prop := t.linkUnknown = s.linkUnknown ∧ CleanCellsKept s t

/-- SET_ROW, whatever its outcome, changes no cell without marking it, and does not set `link_unknown`. -/
theorem exec_setRow_clean {w : Bool} {a : Byte} {text : List Byte} {s t : State} (he : exec (.setRow w a text) s = .next t) :
    ClaimKept s t := by
  have hs : ClaimKept s s := ⟨rfl, .refl s⟩
  have hbody : (setRowBody w a text s).Sat (ClaimKept s) fun e u => e ≠ .transport ∧ ClaimKept s u :=
    setRowBody_sat text (fun x v u hx hu => ⟨by simpa using hu.1, hu.2.setCell hx v⟩) ⟨by simp, hs⟩ (fun _ _ => ⟨by simp, hs⟩) hs
  obtain ⟨r, hr, hsat⟩ := exec_eq_finish (i := .setRow w a text) hbody fun _ => ⟨by simp, hs⟩
  obtain rfl : r.finish = t := Host.Outcome.next.inj (hr.symm.trans he)
  refine hsat.finish (Q := ClaimKept s) (fun u hu => hu) fun e u hu => ?_
  obtain ⟨hne, hlink, hclean⟩ := hu
  refine ⟨?_, hclean.congr (by simp) (by simp) (by simp)⟩
  cases e with
  | transport => exact absurd rfl hne
  | coordinate row col => exact hlink
  | refuse x => exact hlink

/-- Settles O59: the cells still clean are clean ones from before with their codes, and the receiver is the same. -/
theorem setRowKeepsAgreement : Obligations.SetRowKeepsAgreement := by
  unfold Obligations.SetRowKeepsAgreement
  intro w a text s t r _ hs he
  obtain ⟨hlink, hclean⟩ := exec_setRow_clean he
  refine ⟨hlink.trans hs, fun hheld _ x hx hd => ?_, fun hagrees _ x hx hd => ?_⟩
  · obtain ⟨hd', hcell⟩ := hclean x hx hd
    rw [hcell, hheld hs x hx hd']
  · obtain ⟨hd', hcell⟩ := hclean x hx hd
    rw [hcell, hagrees hs x hx hd']

end Sys2Proof.Machine
end

section
/-! SUPPORT. The receiver at the block's writes: a nibble latches once, a send is one instruction word
(20_memory.md R70 to R73; 41_bit_banger.md R150). -/

namespace Sys2Proof.Machine

/-! ## The lines of a nibble's bytes -/

theorem dataNibble_and_mask {n k : Byte} (hn : n &&& 0xF0 = n) (hk : k = 1 ∨ k = 2 ∨ k = 4 ∨ k = 8) : n &&& k = 0 := by
  rw [← hn, BitVec.and_assoc]
  rcases hk with rfl | rfl | rfl | rfl <;> simp

theorem mask_and_dataField {k : Byte} (hk : k = 1 ∨ k = 2 ∨ k = 4 ∨ k = 8) : k &&& 0xF0 = 0 := by
  rcases hk with rfl | rfl | rfl | rfl <;> rfl

theorem mask_ne_zero {k : Byte} (hk : k = 1 ∨ k = 2 ∨ k = 4 ∨ k = 8) : k ≠ 0#8 := by
  rcases hk with rfl | rfl | rfl | rfl <;> decide

/-- What the lines carry at the first and third byte of a nibble: EN low, the data bits, rs by the mode, BL by the bit. -/
theorem nibble_lines {c : Config} (hc : c.wf = true) {n : Byte} (hn : n &&& 0xF0 = n) (m : Mode) (bl : Bool) :
    (n ||| modeBit c m ||| blBits c bl) &&& c.enMask = 0 ∧ (n ||| modeBit c m ||| blBits c bl) &&& 0xF0 = n ∧
    ((n ||| modeBit c m ||| blBits c bl) &&& c.rsMask != 0) = decide (m = .data) ∧
    ((n ||| modeBit c m ||| blBits c bl) &&& c.blMask != 0) = bl := by
  obtain ⟨hrs, -, hen, hbl, -, hrsen, hrsbl, -, -, henbl⟩ := Config.wf_masks hc
  have hnrs := dataNibble_and_mask hn hrs
  have hnen := dataNibble_and_mask hn hen
  have hnbl := dataNibble_and_mask hn hbl
  simp only [byte_or_and_right, hn, hnrs, hnen, hnbl]
  refine ⟨?_, ?_, ?_, ?_⟩
  · rw [modeBit_and (Config.mask_disjoint hrs hen hrsen), blBits_and (Config.mask_disjoint hbl hen henbl.symm)]; rfl
  · rw [modeBit_and (mask_and_dataField hrs), blBits_and (mask_and_dataField hbl)]; simp
  · rw [blBits_and (Config.mask_disjoint hbl hrs hrsbl.symm)]
    cases m <;> simp [modeBit, mask_ne_zero hrs]
  · rw [modeBit_and (Config.mask_disjoint hrs hbl hrsbl)]
    cases bl <;> simp [blBits, mask_ne_zero hbl]

/-! ## A nibble and a send -/

/-- The receiver with its lines set by the last of `k` more bytes. -/
def Receiver.setLines (r : Receiver) (en bl : Bool) (k : Nat) : Receiver := { r with lastEn := en, backlight := bl, seen := r.seen + k }

@[simp] theorem Receiver.setLines_setLines (r : Receiver) (en bl en' bl' : Bool) (j k : Nat) :
    (r.setLines en bl j).setLines en' bl' k = r.setLines en' bl' (j + k) := by
  simp [Receiver.setLines, Nat.add_assoc]

/-- With EN low before it, a byte only sets the lines. -/
theorem Receiver.observe_of_lastEn_low {c : Config} {r : Receiver} {dev : Byte} (hdev : dev = r.addr) (hen : r.lastEn = false)
    (hlost : r.lost = false) (b : Byte) :
    r.observe c (.write dev b .ack) = r.setLines (b &&& c.enMask != 0) (b &&& c.blMask != 0) 1 := by
  simp [Receiver.observe, Receiver.takeByte, Receiver.setLines, hdev, hen, hlost]

/-- A byte with EN low after one with EN high latches its nibble. -/
theorem Receiver.observe_of_en_falls {c : Config} {r : Receiver} {dev : Byte} (hdev : dev = r.addr) (hen : r.lastEn = true)
    (hlost : r.lost = false) {b : Byte} (hb : b &&& c.enMask = 0) :
    r.observe c (.write dev b .ack) =
      (r.setLines false (b &&& c.blMask != 0) 1).latch (b &&& 0xF0) (b &&& c.rsMask != 0) := by
  simp [Receiver.observe, Receiver.takeByte, Receiver.setLines, hdev, hen, hlost, hb]

/-- The three writes of a nibble latch it once (20_memory.md R71). -/
theorem Receiver.run_nibble {c : Config} (hc : c.wf = true) {r : Receiver} {dev : Byte} (hdev : dev = r.addr) (hen : r.lastEn = false)
    (hlost : r.lost = false) {n : Byte} (hn : n &&& 0xF0 = n) (m : Mode) (bl : Bool) :
    r.run c (ackedWrites dev (nibbleBytes c bl (n ||| modeBit c m))) = (r.setLines false bl 3).latch n (decide (m = Mode.data)) := by
  obtain ⟨hven, hvdata, hvrs, hvbl⟩ := nibble_lines hc hn m bl
  obtain ⟨-, -, hmask, -⟩ := Config.wf_masks hc
  have hraised : ((n ||| modeBit c m ||| blBits c bl ||| c.enMask) &&& c.enMask != 0) = true := by
    rw [byte_or_and_right, hven]
    simpa using mask_ne_zero hmask
  have hlow : ((n ||| modeBit c m ||| blBits c bl) &&& c.enMask != 0) = false := by rw [hven]; rfl
  show ((r.observe c (.write dev _ .ack)).observe c (.write dev _ .ack)).observe c (.write dev _ .ack) = _
  rw [Receiver.observe_of_lastEn_low hdev hen hlost, hlow, Receiver.observe_of_lastEn_low (r := r.setLines _ _ _) hdev rfl hlost,
    hraised, Receiver.setLines_setLines, Receiver.observe_of_en_falls (r := r.setLines _ _ _) hdev rfl hlost hven, hvdata, hvrs, hvbl,
    Receiver.setLines_setLines]

theorem hiNibble_data (b : Byte) : hiNibble b &&& 0xF0 = hiNibble b := by
  unfold hiNibble
  rw [BitVec.and_assoc]
  rfl

theorem loNibble_data (b : Byte) : loNibble b &&& 0xF0 = loNibble b := by
  unfold loNibble
  rw [BitVec.and_assoc]
  rfl

/-- The two nibbles of a byte put together. -/
theorem hiNibble_or_loNibble (b : Byte) : hiNibble b ||| loNibble b >>> 4 = b := by
  revert b
  decide

/-- The receiver after the high nibble of a byte in 4-bit mode (20_memory.md R73). -/
def Receiver.withHighHalf (r : Receiver) (n : Byte) (rs : Bool) : Receiver := { r with highHalf := some (n, rs) }

/-- A send at the start of a byte is one instruction word (41_bit_banger.md R150). -/
theorem Receiver.run_send {c : Config} (hc : c.wf = true) {r : Receiver} {dev : Byte} (hdev : dev = r.addr) (hr : r.atByteStart)
    (b : Byte) (m : Mode) (bl : Bool) :
    r.run c (ackedWrites dev (sendBytes c bl b m)) =
      (r.setLines false bl 6).execute (decodeLcd (packLcd (decide (m = Mode.data)) b)) := by
  obtain ⟨hfour, hhigh, hen, hsettle, hlost⟩ := hr
  have hfirst : (r.setLines false bl 3).latch (hiNibble b) (decide (m = Mode.data)) =
      (r.setLines false bl 3).withHighHalf (hiNibble b) (decide (m = Mode.data)) := by
    simp [Receiver.latch, Receiver.setLines, Receiver.withHighHalf, hsettle, hfour, hhigh]
  rw [sendBytes, ackedWrites, List.map_append, Receiver.run_append, ← ackedWrites, ← ackedWrites,
    Receiver.run_nibble hc hdev hen hlost (hiNibble_data b), hfirst,
    Receiver.run_nibble hc (r := (r.setLines false bl 3).withHighHalf _ _) hdev rfl hlost (loNibble_data b)]
  simp [Receiver.latch, Receiver.setLines, Receiver.withHighHalf, hsettle, hfour, hiNibble_or_loNibble, ← hhigh]

end Sys2Proof.Machine
end

section
/-! SUPPORT. REFRESH as bus writes, and the DDRAM addresses of the cells (20_memory.md R58, R59; 43_display_memory_ops.md R187). -/

namespace Sys2Proof.Machine

theorem refreshEntry_eq {x : Coord} {s : State} (h : s.cfg.wf = true) (hx : x.valid = true) :
    refreshEntry x s = runBytes (entryBytes s x) s := by
  rw [refreshEntry, if_pos hx, entryBytes, runBytes_append, ← send_eq _ _ h]
  rcases send_cases (encDdram s.cfg (ddramOperand x)) .cmd h with ⟨-, e⟩ | ⟨k, -, -, e⟩ <;> rw [e]
  · exact send_eq (s := s.afterBytes _) _ _ h
  · rfl

/-- REFRESH's walk over valid entries is the bus writes of R187. -/
theorem refreshEntries_eq {xs : List Coord} {s : State} (h : s.cfg.wf = true) (hxs : ∀ x ∈ xs, x.valid = true) :
    refreshEntries xs s = runBytes (xs.flatMap (entryBytes s)) s := by
  induction xs generalizing s with
  | nil => rfl
  | cons x xs ih =>
    have hrest : ∀ y ∈ xs, y.valid = true := fun y hy => hxs y (List.mem_cons_of_mem _ hy)
    rw [refreshEntries, refreshEntry_eq h (hxs x List.mem_cons_self), List.flatMap_cons, runBytes_append]
    rcases runBytes_cases (entryBytes s x) s with ⟨-, e⟩ | ⟨k, -, -, e⟩ <;> rw [e]
    · exact ih (s := s.afterBytes _) h hrest
    · rfl

/-- A REFRESH that returns OK has written every entry and emptied the list (R187, R188). -/
theorem exec_refresh_of_ok {s t : State} (h : s.cfg.wf = true) (hdirty : ∀ x ∈ s.dirty, x.valid = true)
    (he : exec .refresh s = .next t) (hok : t.replies = s.replies ++ [.ok]) :
    t = State.reply { s.afterBytes (refreshBytes s) with dirty := [] } .ok := by
  obtain rfl : runRequest true refreshBody s = t := Host.Outcome.next.inj he
  rcases runRequest_cases true refreshBody s with ⟨r, -, e⟩ | ⟨-, -, e⟩
  · simp [e] at hok
  · have hbody : refreshBody s = (runBytes (refreshBytes s) s).andThen fun u => .done { u with dirty := [] } := by
      rw [refreshBody, refreshEntries_eq h hdirty, refreshBytes]
    rw [hbody] at e
    rcases runBytes_cases (refreshBytes s) s with ⟨-, hr⟩ | ⟨k, -, -, hr⟩
    · rw [e, hr]; rfl
    · simp [e, hr] at hok

/-- The DDRAM rows begin at 0x00, 0x40, 0x14 and 0x54 (20_memory.md R58, R59). -/
theorem ddramCell_cases {x : Coord} (hx : x.valid = true) :
    x.col < 20 ∧ ((x.row = 0 ∧ ddramCell x = x.col) ∨ (x.row = 1 ∧ ddramCell x = 64 + x.col) ∨
      (x.row = 2 ∧ ddramCell x = 20 + x.col) ∨ (x.row = 3 ∧ ddramCell x = 84 + x.col)) := by
  obtain ⟨r, c⟩ := x
  obtain ⟨hr, hc⟩ := (Coord.valid_iff _).1 hx
  refine ⟨hc, ?_⟩
  have hrow : r = 0 ∨ r = 1 ∨ r = 2 ∨ r = 3 := by change r < 4 at hr; omega
  change c < 20 at hc
  rcases hrow with rfl | rfl | rfl | rfl <;> simp [ddramCell, controllerAddr, Config.rowBase] <;> omega

/-- Different cells have different DDRAM addresses. -/
theorem ddramCell_inj {x y : Coord} (hx : x.valid = true) (hy : y.valid = true) (h : ddramCell x = ddramCell y) : x = y := by
  obtain ⟨hxc, hxr⟩ := ddramCell_cases hx
  obtain ⟨hyc, hyr⟩ := ddramCell_cases hy
  obtain ⟨r, c⟩ := x
  obtain ⟨q, d⟩ := y
  dsimp only at hxc hxr hyc hyr
  rw [Coord.mk.injEq]
  omega

/-- The set-DDRAM word of a cell selects its DDRAM address, with the default's select value (30_encoding.md R90). -/
theorem decodeLcd_setDdram : ∀ b : Byte, decodeLcd (packLcd false (0x80 ||| b)) = .lcdSetDdramAddr (b.setWidth 7) := by decide

theorem decodeLcd_data (d : Byte) : decodeLcd (packLcd true d) = .lcdWriteData d := by
  simp [decodeLcd]

theorem ddramOperand_toNat (x : Coord) : ((ddramOperand x).setWidth 7).toNat = ddramCell x := by
  rw [ddramOperand, ddramCell, BitVec.toNat_setWidth, BitVec.toNat_ofNat]
  exact Nat.mod_mod_of_dvd _ (by decide)

end Sys2Proof.Machine
end

section
/-! A REFRESH that returns OK brings the receiver to the mirror (20_memory.md R77; 10_state.md R33). -/

namespace Sys2Proof.Machine

/-- A data byte leaves the phase, the interface mode and shift-enable. -/
theorem Receiver.storeData_mode (r : Receiver) (d : Byte) :
    (r.storeData d).fourBit = r.fourBit ∧ (r.storeData d).highHalf = r.highHalf ∧ (r.storeData d).shiftEnable = r.shiftEnable := by
  unfold Receiver.storeData
  cases r.pointer <;> cases hs : r.shiftEnable <;> simp [Receiver.movePicture]

theorem Receiver.atByteStart.setLines {r : Receiver} (h : r.atByteStart) (bl : Bool) (k : Nat) : (r.setLines false bl k).atByteStart := by
  obtain ⟨hfour, hhigh, -, hsettle, hlost⟩ := h
  exact ⟨hfour, hhigh, rfl, hsettle, hlost⟩

theorem Receiver.atByteStart.setDdram {r : Receiver} (h : r.atByteStart) (a : BitVec 7) :
    (r.execute (.lcdSetDdramAddr a)).atByteStart := h

/-- A data byte leaves the receiver at the start of a byte. -/
theorem Receiver.atByteStart.storeData {r : Receiver} (h : r.atByteStart) (d : Byte) : (r.storeData d).atByteStart := by
  obtain ⟨hfour, hhigh, hen, hsettle, hlost⟩ := h
  obtain ⟨hfour', hhigh', -⟩ := r.storeData_mode d
  obtain ⟨-, hen', -, hlost', -⟩ := r.execute_frame (.lcdWriteData d)
  have hsettle' := r.execute_settle (.lcdWriteData d) (by simp) (by simp)
  exact ⟨hfour'.trans hfour, hhigh'.trans hhigh, hen'.trans hen, hsettle'.trans hsettle, hlost'.trans hlost⟩

/-- `q` is `r` once the cells `xs` have been written with their codes. -/
structure Refreshed (code : Coord → Byte) (xs : List Coord) (r q : Receiver) : Prop where
  start : q.atByteStart
  addr : q.addr = r.addr
  canonical : Memory.wf receiverBlank q.ddram = true
  shift : q.shiftEnable = r.shiftEnable
  layout : r.shiftEnable = false → q.inLayout = r.inLayout
  holds : ∀ y : Coord, y.valid = true → q.holds y = if y ∈ xs then code y else r.holds y

theorem Refreshed.nil (code : Coord → Byte) {r : Receiver} (hr : r.atByteStart) (hwf : Memory.wf receiverBlank r.ddram = true) :
    Refreshed code [] r r :=
  ⟨hr, rfl, hwf, rfl, fun _ => rfl, by simp⟩

/-- Setting the lines and selecting a DDRAM address writes no cell. -/
theorem Refreshed.select (code : Coord → Byte) {r : Receiver} (hr : r.atByteStart) (hwf : Memory.wf receiverBlank r.ddram = true)
    (bl : Bool) (a : BitVec 7) : Refreshed code [] r (((r.setLines false bl 6).execute (.lcdSetDdramAddr a)).setLines false bl 6) :=
  ⟨((hr.setLines bl 6).setDdram a).setLines bl 6, rfl, hwf, rfl, fun _ => rfl, fun _ _ => rfl⟩

theorem Refreshed.append {code : Coord → Byte} {xs ys : List Coord} {r q p : Receiver} (h : Refreshed code xs r q)
    (h' : Refreshed code ys q p) : Refreshed code (xs ++ ys) r p where
  start := h'.start
  addr := h'.addr.trans h.addr
  canonical := h'.canonical
  shift := h'.shift.trans h.shift
  layout hs := (h'.layout (h.shift.trans hs)).trans (h.layout hs)
  holds y hy := by
    rw [h'.holds y hy, h.holds y hy]
    by_cases hys : y ∈ ys <;> simp [hys]

/-- A set-DDRAM word and a data byte write one cell. -/
theorem refreshed_storeData {r : Receiver} (hr : r.atByteStart) (hwf : Memory.wf receiverBlank r.ddram = true) (code : Coord → Byte)
    {x : Coord} (hx : x.valid = true) {a : BitVec 7} (ha : r.pointer = .ddram a) (hax : a.toNat = ddramCell x) :
    Refreshed code [x] r (r.storeData (code x)) := by
  obtain ⟨hddram, hlayout⟩ := Receiver.storeData_ddram ha (code x)
  obtain ⟨-, -, hshift⟩ := r.storeData_mode (code x)
  refine ⟨hr.storeData _, (r.execute_frame (.lcdWriteData (code x))).1, by rw [hddram]; exact Memory.wf_write hwf, hshift, fun hs => ?_,
    fun y hy => ?_⟩
  · obtain ⟨hfourRow, hinPlace⟩ := hlayout hs
    rw [Receiver.inLayout, hfourRow, hinPlace, Receiver.inLayout]
  · rw [Receiver.holds, hddram, hax]
    by_cases hyx : y = x
    · subst hyx
      simpa using Memory.read_write_same hwf
    · simpa [hyx, Receiver.holds] using Memory.read_write_ne (fun he => hyx (ddramCell_inj hy hx he)) r.ddram

/-- The twelve writes of one entry of REFRESH. -/
theorem refreshed_entry {s : State} (h : s.cfg.wf = true) (hsel : s.cfg.selDdram = 0x80) {r : Receiver} (hr : r.atByteStart)
    (haddr : s.devAddr = r.addr) (hwf : Memory.wf receiverBlank r.ddram = true) {x : Coord} (hx : x.valid = true) :
    Refreshed s.cellAt [x] r (r.run s.cfg (ackedWrites s.devAddr (entryBytes s x))) := by
  have hword : decodeLcd (packLcd (decide (Mode.cmd = Mode.data)) (encDdram s.cfg (ddramOperand x))) =
      .lcdSetDdramAddr ((ddramOperand x).setWidth 7) := by
    rw [encDdram, hsel]
    exact decodeLcd_setDdram _
  rw [entryBytes, ackedWrites, List.map_append, Receiver.run_append, ← ackedWrites, ← ackedWrites,
    Receiver.run_send h haddr hr, hword]
  have hr' := (hr.setLines s.bl 6).setDdram ((ddramOperand x).setWidth 7)
  rw [Receiver.run_send h (r := (r.setLines false s.bl 6).execute _) haddr hr', decide_eq_true rfl, decodeLcd_data]
  exact (Refreshed.select s.cellAt hr hwf s.bl _).append
    (refreshed_storeData (hr'.setLines s.bl 6) hwf s.cellAt hx rfl (ddramOperand_toNat x))

/-- All the writes of a REFRESH. -/
theorem refreshed_entries {s : State} (h : s.cfg.wf = true) (hsel : s.cfg.selDdram = 0x80) {xs : List Coord}
    (hxs : ∀ x ∈ xs, x.valid = true) {r : Receiver} (hr : r.atByteStart) (haddr : s.devAddr = r.addr)
    (hwf : Memory.wf receiverBlank r.ddram = true) :
    Refreshed s.cellAt xs r (r.run s.cfg (ackedWrites s.devAddr (xs.flatMap (entryBytes s)))) := by
  induction xs generalizing r with
  | nil => exact .nil _ hr hwf
  | cons x xs ih =>
    have hfirst := refreshed_entry h hsel hr haddr hwf (hxs x List.mem_cons_self)
    rw [List.flatMap_cons, ackedWrites, List.map_append, Receiver.run_append]
    exact hfirst.append (ih (fun y hy => hxs y (List.mem_cons_of_mem _ hy)) hfirst.start (haddr.trans hfirst.addr.symm) hfirst.canonical)

/-- In the layout the screen shows what the DDRAM holds. -/
theorem Receiver.shows_of_inLayout {r : Receiver} (h : r.inLayout = true) (x : Coord) : r.shows x = r.holds x := by
  simp [Receiver.shows, Receiver.shownAddress, h, Receiver.holds]

/-- Settles O58: the dirty cells hold their codes, the others are as they were, and in the layout the screen shows the DDRAM. -/
theorem refreshRestoresAgreement : Obligations.RefreshRestoresAgreement := by
  unfold Obligations.RefreshRestoresAgreement
  intro s t r hinv hsel hlink hr haddr hwf he hok
  obtain rfl := exec_refresh_of_ok hinv.cfg_wf hinv.dirty_valid he hok
  have hnew : newEvents s (State.reply { s.afterBytes (refreshBytes s) with dirty := [] } .ok) =
      ackedWrites s.devAddr (refreshBytes s) := by simp [newEvents]
  have hq := refreshed_entries hinv.cfg_wf hsel hinv.dirty_valid hr haddr.symm hwf
  rw [hnew, refreshBytes]
  have hall (hclean : ∀ x : Coord, x.valid = true → x ∉ s.dirty → r.holds x = s.cellAt x) (x : Coord) (hx : x.valid = true) :
      (r.run s.cfg (ackedWrites s.devAddr (s.dirty.flatMap (entryBytes s)))).holds x = s.cellAt x := by
    rw [hq.holds x hx]
    split
    · rfl
    · next hd => exact hclean x hx hd
  refine ⟨hq.start, fun hheld => hall (hheld hlink), fun hagrees hlayout hshift => ?_⟩
  have hlayout' := (hq.layout hshift).trans hlayout
  refine ⟨hlayout', fun x hx => ?_⟩
  rw [Receiver.shows_of_inLayout hlayout']
  exact hall (fun y hy hd => by rw [← Receiver.shows_of_inLayout hlayout, hagrees hlink y hy hd]) x hx

end Sys2Proof.Machine
end

section
/-! SUPPORT. A complete INIT in closed form (42_initialization.md R160 to R167). -/

namespace Sys2Proof.Machine

theorem write4bits_of_acks {x : Byte} {s : State} (h : s.cfg.wf = true) (hx : x &&& s.cfg.enMask = 0) (ha : s.acks 3) :
    write4bits x s = .done (s.afterBytes (nibbleBytes s.cfg s.bl x)) := by
  rw [write4bits_eq h hx]
  exact runBytes_of_acks _ ha

/-- The answers ahead once `k` of them are used up. -/
theorem State.acks_of_consumed {s t : State} (k : Nat) {n : Nat} (ha : s.acks (k + n)) (hanswers : t.answers = s.answers.drop k)
    (hdraws : t.draws = s.draws + k) : t.acks n := fun j hj => by
  rw [← ha (k + j) (by omega)]
  simp [State.answerAt, hanswers, hdraws, Nat.add_assoc]

/-- The state after INIT's forcing step with every write ACKed (R163). -/
def afterForce (s : State) : State :=
  (((s.afterBytes (nibbleBytes s.cfg s.bl 0x00)).delay .initNibbleDelay).afterBytes
    (nibbleBytes s.cfg s.bl 0x20)).delay .initNibbleDelay

theorem initForce_of_acks {s : State} (h : s.cfg.wf = true) (ha : s.acks 6) : initForce s = .done (afterForce s) := by
  obtain ⟨-, -, hen, -⟩ := Config.wf_masks h
  have hfirst := write4bits_of_acks h (dataNibble_and_mask (n := 0x00) (by decide) hen) (State.acks_mono ha (by decide))
  have hsecond := write4bits_of_acks (s := (s.afterBytes (nibbleBytes s.cfg s.bl 0x00)).delay .initNibbleDelay) h
    (dataNibble_and_mask (n := 0x20) (by decide) hen) (State.acks_of_consumed 3 ha rfl rfl)
  rw [initForce, hfirst, Run.andThen_done, hsecond]
  rfl

/-- CLEAR leaves a blank grid blank, whether it blanks the mirror or not. -/
theorem clearTail_grid_of_nil {s : State} (h : s.grid = []) : (clearTail s).grid = [] := by
  rw [clearTail_grid, h]
  exact ite_self _

theorem clearBody_of_acks {s : State} (h : s.cfg.wf = true) (ha : s.acks 6) :
    clearBody s = .done (clearTail (s.afterBytes (sendBytes s.cfg s.bl s.cfg.selClear .cmd))) := by
  rw [clearBody, send_of_acks _ _ h ha]
  rfl

theorem initDisplayOn_of_acks {s : State} (h : s.cfg.wf = true) (ha : s.acks 6) :
    initDisplayOn s = .done (s.afterBytes (sendBytes s.cfg s.bl (s.cfg.selDispctl ||| 0x04) .cmd)) :=
  send_of_acks _ _ h ha

/-- The state a complete INIT leaves, its status apart. -/
def afterInit (a : Byte) (s : State) : State :=
  { initReset a s with
    initState := .ready
    trace := s.trace ++ initTrace s.cfg a s.cfg.backlightReset
    answers := s.answers.drop 18
    draws := s.draws + 18 }

/-- INIT's body with every write ACKed. -/
theorem initBody_of_acks {s : State} (a : Byte) (h : s.cfg.wf = true) (ha : s.acks 18) : initBody a s = .done (afterInit a s) := by
  let u := afterForce (initWait (initReset a s))
  let v := clearTail (u.afterBytes (sendBytes u.cfg u.bl u.cfg.selClear .cmd))
  have hforce : initForce (initWait (initReset a s)) = .done u := initForce_of_acks h (State.acks_mono ha (by decide))
  have hclear : clearBody u = .done v := clearBody_of_acks h
    (State.acks_mono (State.acks_of_consumed (n := 12) 6 ha (by simp [u, afterForce]) (by simp [u, afterForce])) (by decide))
  have hdisplay := initDisplayOn_of_acks (s := v) (by simpa [v, u, afterForce] using h)
    (State.acks_of_consumed 12 ha (by simp [v, u, afterForce]) (by simp [v, u, afterForce]))
  rw [initBody, hforce, Run.andThen_done, hclear, Run.andThen_done, hdisplay, Run.andThen_done]
  have hgrid : v.grid = [] := clearTail_grid_of_nil rfl
  refine congrArg Run.done (State.ext_fields ?_ ?_ ?_ ?_ ?_ ?_ ?_ hgrid ?_ ?_ ?_ ?_ ?_ ?_) <;>
    simp [v, u, afterForce, afterInit, initTrace]

end Sys2Proof.Machine
end

section
/-! A complete INIT and the receiver at power-on (20_memory.md R72, R76; 42_initialization.md R169). -/

namespace Sys2Proof.Machine

/-- What a complete INIT leaves of a receiver that was at power-on. -/
def Receiver.afterInit (r : Receiver) (bl : Bool) : Receiver :=
  { r.setLines false bl 18 with
    fourBit := true
    highHalf := none
    ddram := []
    pointer := .ddram 0
    display := (true, false, false)
    fourRow := false
    movedAt := r.seen + 6
    settle := 0 }

/-- In 8-bit mode a command nibble is a whole instruction word (20_memory.md R72). -/
theorem Receiver.run_nibble_eightBit {c : Config} (hc : c.wf = true) {r : Receiver} {dev : Byte} (hdev : dev = r.addr)
    (hfour : r.fourBit = false) (hen : r.lastEn = false) (hsettle : r.settle = 0) (hlost : r.lost = false) {n : Byte}
    (hn : n &&& 0xF0 = n) (bl : Bool) :
    r.run c (ackedWrites dev (nibbleBytes c bl n)) = (r.setLines false bl 3).execute (decodeLcd (packLcd false n)) := by
  have hrun := Receiver.run_nibble hc hdev hen hlost hn .cmd bl
  rw [show n ||| modeBit c .cmd = n from BitVec.or_zero] at hrun
  rw [hrun]
  simp [Receiver.latch, Receiver.setLines, hsettle, hfour]

/-- The receiver after the second forcing nibble: the function set that chooses 4-bit mode (42_initialization.md R163). -/
def Receiver.afterForce (r : Receiver) (bl : Bool) : Receiver :=
  (r.setLines false bl 6).execute (.lcdFunctionSet false false false 0)

/-- The first forcing nibble is a null word, the second a function set, and their delays change nothing. -/
theorem Receiver.run_force {c : Config} (hc : c.wf = true) {r : Receiver} (hr : r.atPowerOn) (bl : Bool) :
    r.run c ([.delay .powerOnWait] ++ ackedWrites r.addr (nibbleBytes c bl 0x00) ++ [.delay .initNibbleDelay] ++
      ackedWrites r.addr (nibbleBytes c bl 0x20) ++ [.delay .initNibbleDelay]) = r.afterForce bl := by
  obtain ⟨hfour, hhigh, hen, hsettle, hlost⟩ := hr
  have hdelay (k : DelayName) (q : Receiver) (hq : q.settle = 0) : q.run c [.delay k] = q := q.elapse_settled c k hq
  have hnull : r.run c (ackedWrites r.addr (nibbleBytes c bl 0x00)) = r.setLines false bl 3 := by
    have hword : decodeLcd (packLcd false 0x00) = .lcdNull := by decide
    rw [Receiver.run_nibble_eightBit hc rfl hfour hen hsettle hlost (by decide), hword]
    rfl
  have hfunction : (r.setLines false bl 3).run c (ackedWrites r.addr (nibbleBytes c bl 0x20)) = r.afterForce bl := by
    have hword : decodeLcd (packLcd false 0x20) = .lcdFunctionSet false false false 0 := by decide
    rw [Receiver.run_nibble_eightBit hc (r := r.setLines _ _ _) (dev := r.addr) rfl hfour rfl hsettle hlost (by decide), hword,
      Receiver.setLines_setLines]
    rfl
  simp only [Receiver.run_append]
  rw [hdelay _ r hsettle, hnull, hdelay _ (r.setLines false bl 3) hsettle, hfunction, hdelay _ (r.afterForce bl) hsettle]

theorem Receiver.run_initTrace {r : Receiver} (hr : r.atPowerOn) (bl : Bool) :
    r.run Config.default (initTrace Config.default r.addr bl) = r.afterInit bl := by
  have hc := Config.default_wf
  obtain ⟨-, -, -, hsettle, hlost⟩ := id hr
  let q := ((r.afterForce bl).setLines false bl 6).execute .lcdClear
  have hclear : (r.afterForce bl).run Config.default (ackedWrites r.addr (sendBytes Config.default bl Config.default.selClear .cmd)) = q := by
    have hword : decodeLcd (packLcd (decide (Mode.cmd = Mode.data)) Config.default.selClear) = .lcdClear := by decide
    rw [Receiver.run_send hc (r := r.afterForce bl) (dev := r.addr) rfl ⟨rfl, rfl, rfl, hsettle, hlost⟩, hword]
  have hsettled : (q.elapse Config.default .clearSettle).settle = 0 := Receiver.elapse_marker hc (.inl rfl) (Nat.le_refl _)
  have hdisplay : (q.elapse Config.default .clearSettle).run Config.default
      (ackedWrites r.addr (sendBytes Config.default bl (Config.default.selDispctl ||| 0x04) .cmd)) = r.afterInit bl := by
    have hword : decodeLcd (packLcd (decide (Mode.cmd = Mode.data)) (Config.default.selDispctl ||| 0x04)) =
        .lcdDisplayControl true false false := by decide
    rw [Receiver.run_send hc (r := q.elapse _ _) (dev := r.addr) rfl ⟨rfl, rfl, rfl, hsettled, hlost⟩, hword]
    simp [q, Receiver.execute, Receiver.setLines, Receiver.elapse, Receiver.afterForce, Receiver.afterInit, Config.delayTime,
      Config.default, Config.clearSettleMin]
  rw [initTrace, Receiver.run_append, Receiver.run_append, Receiver.run_append, Receiver.run_force hc hr, hclear]
  exact hdisplay

/-- Settles O60: INIT's trace brings the receiver up blank, and the mirror is blank. -/
theorem initBringsTheReceiverUp : Obligations.InitBringsTheReceiverUp := by
  unfold Obligations.InitBringsTheReceiverUp
  intro s t a r hcfg hh _ ha hr haddr he
  have hwf : s.cfg.wf = true := by rw [hcfg]; exact Config.default_wf
  rw [exec_eq, needsReady, runRequest_of_gate_none (State.gate_false hh), bodyOf, initBody_of_acks a hwf ha, Run.finish_done] at he
  obtain rfl := Host.Outcome.next.inj he
  have hnew : newEvents s ((afterInit a s).reply .ok) = initTrace Config.default r.addr s.cfg.backlightReset := by
    simp [newEvents, afterInit, hcfg, haddr]
  have hblank : ∀ x : Coord, ((afterInit a s).reply .ok).cellAt x = 0x20 := fun x => by
    simp [State.cellAt, afterInit, hcfg, Config.default]
  rw [hnew, hcfg, Receiver.run_initTrace hr]
  obtain ⟨-, -, -, -, hlost⟩ := hr
  exact ⟨⟨rfl, rfl, rfl, rfl, hlost⟩, rfl, rfl, rfl, fun _ x _ _ => (hblank x).symm, fun _ x _ _ => (hblank x).symm⟩

end Sys2Proof.Machine
end

section
/-! Every bus write goes to `dev_addr` with RW clear and BL as the backlight bit (20_memory.md R53; 30_encoding.md R86; 41_bit_banger.md R144). -/

namespace Sys2Proof.Machine

/-- What a byte on the bus must carry beside its address: RW clear, BL as the bit. -/
def DrivenByte (c : Config) (bl : Bool) (b : Byte) : Prop := b &&& c.rwMask = 0 ∧ b &&& c.blMask = blBits c bl

/-- A nibble's bytes are driven right when its operand has neither RW nor BL. -/
theorem drivenByte_of_mem_nibbleBytes {c : Config} (hc : c.wf = true) (bl : Bool) {x : Byte} (hrw : x &&& c.rwMask = 0)
    (hbl : x &&& c.blMask = 0) : ∀ b ∈ nibbleBytes c bl x, DrivenByte c bl b := by
  obtain ⟨-, hmrw, hmen, hmbl, -, -, -, hrwen, hrwbl, henbl⟩ := Config.wf_masks hc
  have hsetup : DrivenByte c bl (x ||| blBits c bl) := by
    refine ⟨?_, ?_⟩
    · rw [byte_or_and_right, hrw, blBits_and (Config.mask_disjoint hmbl hmrw hrwbl.symm)]; rfl
    · rw [byte_or_and_right, hbl]
      cases bl <;> simp [blBits]
  have hraised : DrivenByte c bl (x ||| blBits c bl ||| c.enMask) := by
    obtain ⟨hsrw, hsbl⟩ := hsetup
    refine ⟨?_, ?_⟩
    · rw [byte_or_and_right, hsrw, Config.mask_disjoint hmen hmrw hrwen.symm]; rfl
    · rw [byte_or_and_right, hsbl, Config.mask_disjoint hmen hmbl henbl]; exact BitVec.or_zero
  intro b hb
  rcases List.mem_cons.1 hb with rfl | hb
  · exact hsetup
  · rcases List.mem_pair.1 hb with rfl | rfl
    · exact hraised
    · exact hsetup

/-- A data nibble with a mode bit has neither. -/
theorem drivenByte_of_mem_modeNibble {c : Config} (hc : c.wf = true) (bl : Bool) {n : Byte} (hn : n &&& 0xF0 = n) (m : Mode) :
    ∀ b ∈ nibbleBytes c bl (n ||| modeBit c m), DrivenByte c bl b := by
  obtain ⟨hmrs, hmrw, -, hmbl, hrsrw, -, hrsbl, -⟩ := Config.wf_masks hc
  refine drivenByte_of_mem_nibbleBytes hc bl ?_ ?_ <;> rw [byte_or_and_right]
  · rw [dataNibble_and_mask hn hmrw, modeBit_and (Config.mask_disjoint hmrs hmrw hrsrw)]; rfl
  · rw [dataNibble_and_mask hn hmbl, modeBit_and (Config.mask_disjoint hmrs hmbl hrsbl)]; rfl

theorem drivenByte_of_mem_sendBytes {c : Config} (hc : c.wf = true) (bl : Bool) (d : Byte) (m : Mode) :
    ∀ b ∈ sendBytes c bl d m, DrivenByte c bl b := fun b hb =>
  (List.mem_append.1 hb).elim (drivenByte_of_mem_modeNibble hc bl (hiNibble_data d) m b)
    (drivenByte_of_mem_modeNibble hc bl (loNibble_data d) m b)

/-- From `s` to `t` every event added is driven right, by the address and the bit of `t`. -/
structure Driven (s t : State) : Prop where
  cfg : t.cfg = s.cfg
  events : ∀ e ∈ newEvents s t, e.wellDriven s.cfg t.devAddr t.bl

/-- With no event added yet, the address and the bit are free. -/
theorem Driven.of_trace_eq {s t : State} (hcfg : t.cfg = s.cfg) (htrace : t.trace = s.trace) : Driven s t :=
  ⟨hcfg, by simp [newEvents, htrace]⟩

theorem Driven.refl (s : State) : Driven s s := .of_trace_eq rfl rfl

/-- What adds events driven by the address and bit there are, and keeps those. -/
theorem Driven.emit {s t u : State} (h : Driven s t) {evs : List Event} (hcfg : u.cfg = t.cfg) (hdev : u.devAddr = t.devAddr)
    (hbl : u.bl = t.bl) (htrace : u.trace = t.trace ++ evs) (hevs : ∀ e ∈ evs, e.wellDriven s.cfg t.devAddr t.bl) : Driven s u := by
  refine ⟨hcfg.trans h.cfg, fun e he => ?_⟩
  rw [hdev, hbl]
  rw [newEvents, htrace, List.drop_append] at he
  exact (List.mem_append.1 he).elim (h.events e) fun he => hevs e (List.mem_of_mem_drop he)

theorem Driven.congr {s t u : State} (h : Driven s t) (hcfg : u.cfg = t.cfg) (hdev : u.devAddr = t.devAddr) (hbl : u.bl = t.bl)
    (htrace : u.trace = t.trace) : Driven s u :=
  h.emit (evs := []) hcfg hdev hbl (by simpa using htrace) (by simp)

theorem Driven.delay {s t : State} (h : Driven s t) (k : DelayName) : Driven s (t.delay k) :=
  h.emit rfl rfl rfl rfl (by simp [Event.wellDriven])

theorem Driven.clearTail {s t : State} (h : Driven s t) : Driven s (clearTail t) :=
  h.emit (by simp) (by simp) (by simp) (clearTail_trace t) (by simp [Event.wellDriven])

theorem Driven.setCell {s t : State} (h : Driven s t) (x : Coord) (v : Byte) : Driven s (setCell x v t) :=
  h.congr (by simp) (by simp) (by simp) (by simp)

/-- A list of bus writes of such bytes, whether it completes or meets a NACK. -/
theorem runBytes_driven {bs : List Byte} {s t : State} (h : Driven s t) (hbs : ∀ b ∈ bs, DrivenByte t.cfg t.bl b) :
    (runBytes bs t).Sat (Driven s) fun _ => Driven s := by
  have hwrite (b : Byte) (hb : b ∈ bs) (a : Answer) : (Event.write t.devAddr b a).wellDriven s.cfg t.devAddr t.bl :=
    ⟨rfl, h.cfg ▸ hbs b hb⟩
  rcases runBytes_cases bs t with ⟨-, e⟩ | ⟨k, hk, -, e⟩ <;> rw [e]
  · refine h.emit rfl rfl rfl (State.afterBytes_trace t bs) fun ev hev => ?_
    obtain ⟨b, hb, rfl⟩ := List.mem_map.1 hev
    exact hwrite b hb .ack
  · refine h.emit rfl rfl rfl ((State.afterNack_trace t bs k).trans (List.append_assoc ..)) fun ev hev => ?_
    rcases List.mem_append.1 hev with hev | hev
    · obtain ⟨b, hb, rfl⟩ := List.mem_map.1 hev
      exact hwrite b (List.mem_of_mem_take hb) .ack
    · rw [List.mem_singleton.1 hev, List.getD_eq_getElem _ _ hk]
      exact hwrite _ (List.getElem_mem hk) .nack

section
variable {s : State} (hc : s.cfg.wf = true)
include hc

theorem send_driven (b : Byte) (m : Mode) {t : State} (h : Driven s t) : (send b m t).Sat (Driven s) fun _ => Driven s := by
  have hct : t.cfg.wf = true := h.cfg ▸ hc
  rw [send_eq b m hct]
  exact runBytes_driven h (drivenByte_of_mem_sendBytes hct t.bl b m)

/-- A nibble with no control bit, as INIT forces it (42_initialization.md R163). -/
theorem write4bits_driven {n : Byte} (hn : n &&& 0xF0 = n) {t : State} (h : Driven s t) :
    (write4bits n t).Sat (Driven s) fun _ => Driven s := by
  have hct : t.cfg.wf = true := h.cfg ▸ hc
  obtain ⟨-, hmrw, hmen, hmbl, -⟩ := Config.wf_masks hct
  rw [write4bits_eq hct (dataNibble_and_mask hn hmen)]
  exact runBytes_driven h
    (drivenByte_of_mem_nibbleBytes hct t.bl (dataNibble_and_mask hn hmrw) (dataNibble_and_mask hn hmbl))

theorem refreshEntries_driven (xs : List Coord) {t : State} (h : Driven s t) :
    (refreshEntries xs t).Sat (Driven s) fun _ => Driven s := by
  induction xs generalizing t with
  | nil => exact h
  | cons x xs ih =>
    have hentry : (refreshEntry x t).Sat (Driven s) fun _ => Driven s := by
      unfold refreshEntry
      split
      · exact (send_driven hc _ _ h).andThen fun _ => send_driven hc _ _
      · exact h
    exact hentry.andThen fun _ => ih

theorem clearBody_driven {t : State} (h : Driven s t) : (clearBody t).Sat (Driven s) fun _ => Driven s :=
  (send_driven hc _ _ h).andThen fun _ => Driven.clearTail

/-- INIT sets the address and the bit before its first event (R161, R162). -/
theorem initBody_driven (a : Byte) : (initBody a s).Sat (Driven s) fun _ => Driven s := by
  have hreset : Driven s (initReset a s) := .of_trace_eq rfl rfl
  have hwait : Driven s (initWait (initReset a s)) := (hreset.delay .powerOnWait).congr rfl rfl rfl rfl
  have hforce : (initForce (initWait (initReset a s))).Sat (Driven s) fun _ => Driven s :=
    ((write4bits_driven hc (by decide) hwait).andThen fun _ h => write4bits_driven hc (by decide) (h.delay _)).andThen
      fun _ h => h.delay _
  exact ((hforce.andThen fun _ => clearBody_driven hc).andThen fun _ => send_driven hc _ _).andThen
    fun _ h => h.congr rfl rfl rfl rfl

theorem bodyOf_driven (i : Instr) : (bodyOf i s).Sat (Driven s) fun _ => Driven s := by
  have hs := Driven.refl s
  cases i
  case init a => exact initBody_driven hc a
  case setRow w a text => exact setRowBody_sat text (fun x v _ _ h => h.setCell x v) hs (fun _ _ => hs) hs
  case refresh => exact (refreshEntries_driven hc _ hs).andThen fun _ h => h.congr rfl rfl rfl rfl
  case clear => exact clearBody_driven hc hs
  case home => exact (send_driven hc _ _ hs).andThen fun t h =>
    Driven.delay (t := { t with cursor := ⟨0, 0⟩ }) (h.congr rfl rfl rfl rfl) .homeSettle
  case setBacklight e => exact send_driven hc _ _ (.of_trace_eq rfl rfl)
  case reserved => exact hs
  all_goals exact send_driven hc _ _ hs

theorem exec_driven {i : Instr} {t : State} (he : exec i s = .next t) : Driven s t := by
  obtain ⟨r, hr, hsat⟩ := exec_eq_finish (bodyOf_driven hc i) fun _ => .refl s
  obtain rfl : r.finish = t := Host.Outcome.next.inj (hr.symm.trans he)
  exact hsat.finish (fun _ h => h.congr rfl rfl rfl rfl) fun _ _ h => h.congr (by simp) (by simp) (by simp) (by simp)

theorem step_driven {t : State} (hst : step s = .next t) : Driven s t := by
  rcases step_cases hst with ⟨-, rfl⟩ | ⟨rest, -, rfl⟩ | ⟨c, rest, -, ⟨i, -, he⟩ | ⟨e, -, rfl⟩⟩
  · exact .refl _
  · exact .of_trace_eq rfl rfl
  · obtain ⟨hcfg, hevents⟩ := exec_driven (s := s.popInput) hc he
    exact ⟨hcfg, hevents⟩
  · rcases refuseEncoding_cases (rejectReason e) s.popInput with ⟨-, hr⟩ | ⟨-, hr⟩ <;> rw [hr] <;> exact .of_trace_eq rfl rfl

end

/-- Settles O43: every byte comes from a nibble without RW and BL, after the last change of the address and the bit. -/
theorem everyBusWriteIsWellDriven : Obligations.EveryBusWriteIsWellDriven :=
  fun _ _ hc hst => (step_driven hc hst).events

end Sys2Proof.Machine
end

section
/-! The nibbles a send latches, and the byte it gives back (20_memory.md R70, R71, R73; 41_bit_banger.md R150). -/

namespace Sys2Proof.Machine

/-- With EN low before them, a nibble's three bytes latch at the third, and leave EN low. -/
theorem latches_nibble_append {c : Config} (hc : c.wf = true) {n : Byte} (hn : n &&& 0xF0 = n) (m : Mode) (bl : Bool) (bs : List Byte) :
    latches c false (nibbleBytes c bl (n ||| modeBit c m) ++ bs) = (n, decide (m = Mode.data)) :: latches c false bs := by
  obtain ⟨hen, hdata, hrs, -⟩ := nibble_lines hc hn m bl
  obtain ⟨-, -, hmask, -⟩ := Config.wf_masks hc
  have hraised : (n ||| modeBit c m ||| blBits c bl ||| c.enMask) &&& c.enMask = c.enMask := by
    rw [byte_or_and_right, hen, BitVec.and_self]
    exact BitVec.zero_or
  simpa [nibbleBytes, latches, isLatch, hen, hraised, mask_ne_zero hmask] using And.intro hdata hrs

/-- Settles O55: without a byte after it the nibble's latch is the only one, and it needs EN high before. -/
theorem nibbleLatchesOnce : Obligations.NibbleLatchesOnce := by
  unfold Obligations.NibbleLatchesOnce
  intro c bl n b m hc hnb
  have hn : n &&& 0xF0 = n := by
    rcases hnb with rfl | rfl
    · exact hiNibble_data b
    · exact loNibble_data b
  obtain ⟨hen, -⟩ := nibble_lines hc hn m bl
  refine ⟨by simpa [latches] using latches_nibble_append hc hn m bl [], ?_⟩
  simp [nibbleBytes, latches, isLatch, hen]

/-- At the start of a byte EN is low already, so setting it low changes nothing. -/
theorem Receiver.setLines_of_en_low {r : Receiver} (hen : r.lastEn = false) (bl : Bool) (k : Nat) :
    r.setLines false bl k = { r with backlight := bl, seen := r.seen + k } := by
  rw [Receiver.setLines, ← hen]

/-- Settles O56: a send is one instruction word, and each of its nibbles latches once. -/
theorem sendRoundTrip : Obligations.SendRoundTrip := by
  unfold Obligations.SendRoundTrip
  intro c r bl b m hc hr
  refine ⟨?_, ?_⟩
  · have hen : r.lastEn = false := by
      obtain ⟨-, -, hen, -⟩ := hr
      exact hen
    rw [Receiver.run_send hc rfl hr, Receiver.setLines_of_en_low hen]
  · have hlow := latches_nibble_append hc (loNibble_data b) m bl []
    rw [List.append_nil, latches] at hlow
    rw [sendBytes, latches_nibble_append hc (hiNibble_data b), hlow]

/-- What a REFRESH that returns OK leaves of the receiver (20_memory.md R77). -/
theorem exec_refresh_refreshed {s t : State} {r : Receiver} (h : s.Inv) (hsel : s.cfg.selDdram = 0x80) (hr : r.atByteStart)
    (haddr : r.addr = s.devAddr) (hwf : Memory.wf receiverBlank r.ddram = true) (he : exec .refresh s = .next t)
    (hok : t.replies = s.replies ++ [.ok]) : Refreshed s.cellAt s.dirty r (r.run s.cfg (newEvents s t)) := by
  obtain rfl := exec_refresh_of_ok h.cfg_wf h.dirty_valid he hok
  have hnew : newEvents s (State.reply { s.afterBytes (refreshBytes s) with dirty := [] } .ok) =
      ackedWrites s.devAddr (refreshBytes s) := by simp [newEvents]
  rw [hnew, refreshBytes]
  exact refreshed_entries h.cfg_wf hsel h.dirty_valid hr haddr.symm hwf

/-- Settles O57: every entry was written, at its own address. -/
theorem refreshConverges : Obligations.RefreshConverges := by
  unfold Obligations.RefreshConverges
  intro s t r hinv hsel _ hr haddr he hok hwf x hx
  rw [(exec_refresh_refreshed hinv hsel hr haddr hwf he hok).holds x (hinv.dirty_valid x hx), if_pos hx]

end Sys2Proof.Machine
end

section
/-! A step on an instruction, and the row address map (20_memory.md R58, R61). -/

namespace Sys2Proof.Machine

/-- Settles O1: the rest of the inputs is what taking the first one away leaves. -/
theorem stepRunsTheDecodedInstruction : Obligations.StepRunsTheDecodedInstruction := by
  unfold Obligations.StepRunsTheDecodedInstruction
  intro s c i rest h hc
  rw [step_instr h hc, State.popInput, h, List.tail_cons]

/-- The rows begin at 128, 192, 148 and 212 (20_memory.md R58). -/
theorem controllerAddr_rows (c : Nat) : controllerAddr ⟨0, c⟩ = 128 + c ∧ controllerAddr ⟨1, c⟩ = 192 + c ∧
    controllerAddr ⟨2, c⟩ = 148 + c ∧ controllerAddr ⟨3, c⟩ = 212 + c := ⟨rfl, rfl, rfl, rfl⟩

theorem controllerAddr_range {x : Coord} (hx : x.valid = true) : 128 ≤ controllerAddr x ∧ controllerAddr x ≤ 231 := by
  obtain ⟨r, c⟩ := x
  obtain ⟨hr, hc⟩ : r < 4 ∧ c < 20 := (Coord.valid_iff _).1 hx
  obtain ⟨h0, h1, h2, h3⟩ := controllerAddr_rows c
  have hrow : r = 0 ∨ r = 1 ∨ r = 2 ∨ r = 3 := by omega
  rcases hrow with rfl | rfl | rfl | rfl <;> omega

/-- The select bit is in every controller address already. -/
theorem selDdram_or_of_ge : ∀ b : Byte, 128 ≤ b.toNat → 0x80 ||| b = b := by decide

/-- With the default parameters the set-DDRAM byte is the controller address (30_encoding.md R90). -/
theorem encDdram_default_toNat {x : Coord} (hx : x.valid = true) :
    (encDdram Config.default (ddramOperand x)).toNat = controllerAddr x := by
  obtain ⟨hlow, hhigh⟩ := controllerAddr_range hx
  have hoperand : (ddramOperand x).toNat = controllerAddr x := (BitVec.toNat_ofNat ..).trans (Nat.mod_eq_of_lt (by omega))
  have hbyte : encDdram Config.default (ddramOperand x) = ddramOperand x := selDdram_or_of_ge _ (by omega)
  rw [hbyte, hoperand]

/-- Settles O52: the four bases, different cells even without the select bit, and the byte of set-DDRAM. -/
theorem controllerAddressMap : Obligations.ControllerAddressMap := by
  unfold Obligations.ControllerAddressMap
  refine ⟨fun c _ => controllerAddr_rows c, fun x y hx hy h => ddramCell_inj hx hy ?_, fun x hx => ?_⟩
  · rw [ddramCell, h, ddramCell]
  · obtain ⟨hlow, hhigh⟩ := controllerAddr_range hx
    exact ⟨hlow, hhigh, encDdram_default_toNat hx⟩

end Sys2Proof.Machine
end

section
/-! The decoder and the encoder are each other's inverse (30_encoding.md R81 to R88, R93, R94). -/

namespace Sys2Proof

/-- The rows of the request table by op code: the reserved codes and twelve requests (30_encoding.md R83). -/
theorem reqOp_cases : ∀ op : BitVec 4, reservedOp op = true ∨ op = 0x0 ∨ op = 0x1 ∨ op = 0x2 ∨ op = 0x3 ∨ op = 0x4 ∨ op = 0x5 ∨
    op = 0x6 ∨ op = 0x7 ∨ op = 0x8 ∨ op = 0x9 ∨ op = 0xA ∨ op = 0xB := by decide

theorem reservedOp_cases : ∀ op : BitVec 4, reservedOp op = true → op = 0xC ∨ op = 0xD ∨ op = 0xE ∨ op = 0xF := by decide

/-- A reserved op code decodes whatever its other fields and payload are (R94). -/
theorem decodeRequest_reserved {op : BitVec 4} (h : reservedOp op = true) (w : Bool) (z : BitVec 3) (a : Byte) (p : List Byte) :
    decodeRequest (packReq16 op w z a) p = .instr (.reserved op w z a p) := by
  rcases reservedOp_cases op h with rfl | rfl | rfl | rfl <;> simp [decodeRequest]

/-- SET_BACKLIGHT's argument byte and its one bit determine each other (R84). -/
theorem backlightBit_bitAt : ∀ e : Bool, (bitAt 0 e).extractLsb' 1 7 = 0 ∧ (bitAt 0 e)[0] = e := by decide

theorem bitAt_backlightBit : ∀ a : Byte, a.extractLsb' 1 7 = 0 → bitAt 0 a[0] = a := by decide

/-- Decoding gives back every well-formed instruction: a packed request word has its fields, and the finitely many LCD words are
computed. -/
theorem decode_encode {i : Instr} (hi : i.wf = true) : decode (encode i) = .instr i := by
  cases i
  case reserved op w z a p => exact decodeRequest_reserved hi w z a p
  case setBacklight e =>
    obtain ⟨hzero, hbit⟩ := backlightBit_bitAt e
    simp [encode, decode, decodeRequest, ifClean, hzero, hbit]
  case init | setRow | refresh | clear | home | setEntryMode | setDisplayControl | setShift | setFunction | setCgramAddr | writeData =>
    simp [encode, decode, decodeRequest, ifClean]
  case lcdWriteData d => exact congrArg _ (Machine.decodeLcd_data d)
  case lcdClear | lcdNull => rfl
  case lcdHome u => revert u; decide
  case lcdEntryMode i h => revert i h; decide
  case lcdDisplayControl d c b => revert d c b; decide
  case lcdShift t r u => revert t r u; decide
  case lcdFunctionSet l n f u => revert l n f u; decide
  case lcdSetCgramAddr a => revert a; decide
  case lcdSetDdramAddr a => revert a; decide

/-- Settles O4: decoding inverts the encoder on every well-formed instruction. -/
theorem decodeOfEncodeIsTheInstruction : Obligations.DecodeOfEncodeIsTheInstruction := fun _ hi => decode_encode hi

/-- What R84 requires of the fields of a request that is not reserved: `z` is 0, only SET_ROW has a wrap flag or a
payload, REFRESH, CLEAR and HOME have no argument, and SET_BACKLIGHT has one bit of it. -/
def FieldsClean (op : BitVec 4) (w : Bool) (z : BitVec 3) (a : Byte) (p : List Byte) : Prop :=
  z = 0 ∧ (op ≠ 1 → w = false ∧ p = []) ∧ (op = 2 ∨ op = 3 ∨ op = 4 → a = 0) ∧ (op = 5 → a.extractLsb' 1 7 = 0)

section
variable {op : BitVec 4} {w : Bool} {z : BitVec 3} {a : Byte} {p : List Byte}

/-- Such a request is the code of the instruction that its op code names. -/
theorem exists_encode_eq_of_clean (h : FieldsClean op w z a p) :
    ∃ i : Instr, i.wf = true ∧ encode i = .request (packReq16 op w z a) p := by
  obtain ⟨rfl, hwp, hzero, hbit⟩ := h
  rcases reqOp_cases op with hop | rfl | rfl | rfl | rfl | rfl | rfl | rfl | rfl | rfl | rfl | rfl | rfl
  · exact ⟨.reserved op w 0 a p, hop, rfl⟩
  · exact ⟨.init a, rfl, by simp [encode, hwp]⟩
  · exact ⟨.setRow w a p, rfl, rfl⟩
  · exact ⟨.refresh, rfl, by simp [encode, hwp, hzero]⟩
  · exact ⟨.clear, rfl, by simp [encode, hwp, hzero]⟩
  · exact ⟨.home, rfl, by simp [encode, hwp, hzero]⟩
  · exact ⟨.setBacklight a[0], rfl, by simp [encode, hwp, bitAt_backlightBit a (hbit rfl)]⟩
  · exact ⟨.setEntryMode a, rfl, by simp [encode, hwp]⟩
  · exact ⟨.setDisplayControl a, rfl, by simp [encode, hwp]⟩
  · exact ⟨.setShift a, rfl, by simp [encode, hwp]⟩
  · exact ⟨.setFunction a, rfl, by simp [encode, hwp]⟩
  · exact ⟨.setCgramAddr a, rfl, by simp [encode, hwp]⟩
  · exact ⟨.writeData a, rfl, by simp [encode, hwp]⟩

/-- Any other request that is not reserved is rejected (R94). -/
theorem decodeRequest_of_not_clean (hop : reservedOp op = false) (h : ¬ FieldsClean op w z a p) :
    decodeRequest (packReq16 op w z a) p = .rejected .reservedField := by
  rcases reqOp_cases op with hop' | rfl | rfl | rfl | rfl | rfl | rfl | rfl | rfl | rfl | rfl | rfl | rfl
  · exact absurd (hop'.symm.trans hop) (by decide)
  all_goals simpa [decodeRequest, ifClean, FieldsClean] using h

/-- Everything the decoder can answer a request. -/
theorem decodeRequest_pack_cases (op : BitVec 4) (w : Bool) (z : BitVec 3) (a : Byte) (p : List Byte) :
    ((reservedOp op = true ∨ FieldsClean op w z a p) ∧
      ∃ i : Instr, decodeRequest (packReq16 op w z a) p = .instr i ∧ encode i = .request (packReq16 op w z a) p ∧ i.wf = true) ∨
    (reservedOp op = false ∧ ¬ FieldsClean op w z a p ∧ decodeRequest (packReq16 op w z a) p = .rejected .reservedField) := by
  by_cases hclean : FieldsClean op w z a p
  · obtain ⟨i, hi, hcode⟩ := exists_encode_eq_of_clean hclean
    exact .inl ⟨.inr hclean, i, by simpa [hcode, decode] using decode_encode hi, hcode, hi⟩
  · cases hop : reservedOp op with
    | true => exact .inl ⟨.inl rfl, _, decodeRequest_reserved hop w z a p, rfl, hop⟩
    | false => exact .inr ⟨rfl, hclean, decodeRequest_of_not_clean hop hclean⟩

end

theorem encode_of_decodeRequest {w : Req16} {p : List Byte} {i : Instr} (h : decodeRequest w p = .instr i) :
    encode i = .request w p ∧ i.wf = true := by
  rw [← packReq16_fields w] at h ⊢
  rcases decodeRequest_pack_cases (reqOp w) (reqWrap w) (reqZ w) (reqArg w) p with ⟨-, j, hj, hcode⟩ | ⟨-, -, hj⟩
  · obtain rfl := Decoded.instr.inj (hj.symm.trans h)
    exact hcode
  · exact absurd (hj.symm.trans h) (by simp)

/-- The 256 command words, by the highest set bit (R88). -/
theorem encode_decodeLcd_command : ∀ b : Byte, encode (decodeLcd (packLcd false b)) = .lcd (packLcd false b) := by decide

theorem encode_decodeLcd (w : LcdWord) : encode (decodeLcd w) = .lcd w := by
  rw [← packLcd_fields w]
  cases lcdRs w with
  | false => exact encode_decodeLcd_command _
  | true => rw [Machine.decodeLcd_data, encode]

theorem decodeLcd_wf (w : LcdWord) : (decodeLcd w).wf = true := by
  unfold decodeLcd
  split_ifs <;> rfl

/-- Settles O5: a request that decodes has clean fields or a reserved op code, and every LCD word decodes. -/
theorem encodeOfDecodeIsTheCode : Obligations.EncodeOfDecodeIsTheCode := by
  unfold Obligations.EncodeOfDecodeIsTheCode
  intro c i h
  cases c with
  | request w p => exact encode_of_decodeRequest h
  | lcd w =>
    obtain rfl := Decoded.instr.inj h
    exact ⟨encode_decodeLcd w, decodeLcd_wf w⟩

/-! The fields of a request word as numbers (R81). -/

theorem reqOp_toNat (w : Req16) : (reqOp w).toNat = w.toNat / 4096 := by
  rw [reqOp, BitVec.extractLsb'_toNat, Nat.shiftRight_eq_div_pow]
  omega

theorem reqZ_toNat (w : Req16) : (reqZ w).toNat = w.toNat / 256 % 8 := by
  simp [reqZ, Nat.shiftRight_eq_div_pow]

theorem reqArg_toNat (w : Req16) : (reqArg w).toNat = w.toNat % 256 := by
  simp [reqArg]

theorem reqWrap_eq_true_iff (w : Req16) : reqWrap w = true ↔ w.toNat / 2048 % 2 = 1 := by
  simp [reqWrap, BitVec.getLsbD, Nat.testBit_eq_decide_div_mod_eq]

theorem backlightField_toNat (a : Byte) : (a.extractLsb' 1 7).toNat = a.toNat / 2 := by
  rw [BitVec.extractLsb'_toNat, Nat.shiftRight_eq_div_pow]
  omega

theorem decodeRequest_eq_rejected_iff (w : Req16) (p : List Byte) : decodeRequest w p = .rejected .reservedField ↔
    reservedOp (reqOp w) = false ∧ ¬ FieldsClean (reqOp w) (reqWrap w) (reqZ w) (reqArg w) p := by
  have hcases := decodeRequest_pack_cases (reqOp w) (reqWrap w) (reqZ w) (reqArg w) p
  rw [packReq16_fields] at hcases
  rcases hcases with ⟨h, i, hi, -⟩ | ⟨hop, hclean, hi⟩
  · rw [hi]
    rcases h with h | h <;> simp [h]
  · exact ⟨fun _ => ⟨hop, hclean⟩, fun _ => hi⟩

/-- `FieldsClean` on the numbers of a request word's fields. -/
theorem fieldsClean_iff (w : Req16) (p : List Byte) : FieldsClean (reqOp w) (reqWrap w) (reqZ w) (reqArg w) p ↔
    w.toNat / 256 % 8 = 0 ∧ (w.toNat / 4096 ≠ 1 → ¬ w.toNat / 2048 % 2 = 1 ∧ p = []) ∧
    (w.toNat / 4096 = 2 ∨ w.toNat / 4096 = 3 ∨ w.toNat / 4096 = 4 → w.toNat % 256 = 0) ∧
    (w.toNat / 4096 = 5 → w.toNat % 256 / 2 = 0) := by
  rw [FieldsClean, ← reqOp_toNat, ← reqZ_toNat, ← reqArg_toNat, ← backlightField_toNat, ← reqWrap_eq_true_iff, Bool.not_eq_true]
  simp only [← BitVec.toNat_inj, ne_eq]
  rfl

theorem reservedOp_eq_false_iff (w : Req16) : reservedOp (reqOp w) = false ↔ w.toNat / 4096 < 0xC := by
  rw [reservedOp, reqOp_toNat, decide_eq_false_iff_not, Nat.not_le]

/-- Settles O6: below 0xC, one of the required fields fails. -/
theorem decoderRejectsExactlyReservedFields : Obligations.DecoderRejectsExactlyReservedFields := by
  unfold Obligations.DecoderRejectsExactlyReservedFields
  intro w p
  rw [decode, decodeRequest_eq_rejected_iff, reservedOp_eq_false_iff, fieldsClean_iff]
  tauto

end Sys2Proof
end

section
/-! A code matches one row of the opcode table (30_encoding.md R83, R88). -/

namespace Sys2Proof

/-- Every instruction's encoding has the fixed bits of its own row. -/
theorem encode_matches_own_row (i : Instr) : Laws.EncodingHasRowBits.Statement i := by
  cases i
  case init a => exact Laws.EncodingHasRowBits.init a
  case setRow w a text => exact Laws.EncodingHasRowBits.setRow w a text
  case refresh => exact Laws.EncodingHasRowBits.refresh
  case clear => exact Laws.EncodingHasRowBits.clear
  case home => exact Laws.EncodingHasRowBits.home
  case setBacklight e => exact Laws.EncodingHasRowBits.setBacklight e
  case setEntryMode p => exact Laws.EncodingHasRowBits.setEntryMode p
  case setDisplayControl p => exact Laws.EncodingHasRowBits.setDisplayControl p
  case setShift p => exact Laws.EncodingHasRowBits.setShift p
  case setFunction p => exact Laws.EncodingHasRowBits.setFunction p
  case setCgramAddr p => exact Laws.EncodingHasRowBits.setCgramAddr p
  case writeData d => exact Laws.EncodingHasRowBits.writeData d
  case reserved op w z a p => exact Laws.EncodingHasRowBits.reserved op w z a p
  case lcdClear => exact Laws.EncodingHasRowBits.lcdClear
  case lcdHome u => exact Laws.EncodingHasRowBits.lcdHome u
  case lcdEntryMode i h => exact Laws.EncodingHasRowBits.lcdEntryMode i h
  case lcdDisplayControl d c b => exact Laws.EncodingHasRowBits.lcdDisplayControl d c b
  case lcdShift t r u => exact Laws.EncodingHasRowBits.lcdShift t r u
  case lcdFunctionSet l n f u => exact Laws.EncodingHasRowBits.lcdFunctionSet l n f u
  case lcdSetCgramAddr a => exact Laws.EncodingHasRowBits.lcdSetCgramAddr a
  case lcdSetDdramAddr a => exact Laws.EncodingHasRowBits.lcdSetDdramAddr a
  case lcdWriteData d => exact Laws.EncodingHasRowBits.lcdWriteData d
  case lcdNull => exact Laws.EncodingHasRowBits.lcdNull

/-- A word that matches two rows has the bits both fix, and there the rows agree. -/
theorem OpcodeRow.not_disjoint_of_matchesWord {r q : OpcodeRow} {w : Nat} (hr : r.matchesWord w = true) (hq : q.matchesWord w = true) :
    r.disjoint q = false := by
  have hrw : w &&& r.mask = r.matchBits := by simpa [OpcodeRow.matchesWord] using hr
  have hqw : w &&& q.mask = q.matchBits := by simpa [OpcodeRow.matchesWord] using hq
  have hboth : r.matchBits &&& q.mask = q.matchBits &&& r.mask := by rw [← hrw, ← hqw, Nat.and_right_comm]
  simp [OpcodeRow.disjoint, hboth]

/-- Two rows of one format differ in a bit that both fix. -/
theorem Code.rows_disjoint (c : Code) : ∀ r ∈ c.rows, ∀ q ∈ c.rows, q ≠ r → r.disjoint q = true := by
  cases c with
  | request w p => exact (by decide : ∀ r ∈ hostRows, ∀ q ∈ hostRows, q ≠ r → r.disjoint q = true)
  | lcd w => exact (by decide : ∀ r ∈ lcdRows, ∀ q ∈ lcdRows, q ≠ r → r.disjoint q = true)

/-- Settles O7: the code is the encoding of its instruction, and a second row would not be disjoint from the first. -/
theorem decodedCodeMatchesOneTableRow : Obligations.DecodedCodeMatchesOneTableRow := by
  unfold Obligations.DecodedCodeMatchesOneTableRow
  intro c i h
  obtain ⟨rfl, hi⟩ := encodeOfDecodeIsTheCode c i h
  obtain ⟨r, hr, hname, hmatch⟩ := encode_matches_own_row i hi
  refine ⟨r, hr, hname, hmatch, fun q hq hqmatch => ?_⟩
  by_contra hne
  have hdisjoint := (encode i).rows_disjoint r hr q hq hne
  rw [OpcodeRow.not_disjoint_of_matchesWord hmatch hqmatch] at hdisjoint
  exact absurd hdisjoint (by decide)

end Sys2Proof
end

section
/-! A step by the code before the block, and the codes that are refused (30_encoding.md R80, R94; 60_exceptions.md R232, R248). -/

namespace Sys2Proof.Machine

/-- A request refused for its encoding: HALTED comes first (R232). -/
theorem refuseEncoding_eq_reply (r : Reason) (s : State) :
    refuseEncoding r s = s.reply (.refused (if s.halted then .halted else r)) := by
  rcases refuseEncoding_cases r s with ⟨hh, h⟩ | ⟨hh, h⟩ <;> simp [h, hh]

/-- Settles O2: with the first input taken away the rest is left, and there is one way to reject a code. -/
theorem stepWithoutAnInstruction : Obligations.StepWithoutAnInstruction := by
  unfold Obligations.StepWithoutAnInstruction
  refine ⟨fun s h => step_nil h, fun s c e rest h hc => ?_⟩
  cases e with
  | reservedField =>
    rw [step_rejected h hc, refuseEncoding_eq_reply, State.popInput, h]
    rfl

theorem decode_codeOfTableWord {nbits w : Nat} {i : Instr} (h : decodeTableWord nbits w = some i) :
    decode (codeOfTableWord nbits w) = .instr i := by
  unfold decodeTableWord at h
  cases hc : decode (codeOfTableWord nbits w) with
  | instr j => simpa [hc] using h
  | rejected e => simp [hc] at h

/-- Settles O3: taking the placed word away gives the state it was placed in. -/
theorem placedWordIsRunByTheNextStep : Obligations.PlacedWordIsRunByTheNextStep := by
  unfold Obligations.PlacedWordIsRunByTheNextStep
  intro s nbits w i h
  rw [step_instr (s := s.withFetchWord nbits w) rfl (decode_codeOfTableWord h)]
  rfl

/-- Settles O8: twelve words computed. -/
theorem sampleWordsDecode : Obligations.SampleWordsDecode := by
  unfold Obligations.SampleWordsDecode
  decide

/-- Settles O11: its meaning is the refusal alone. -/
theorem reservedOpIsRefused : Obligations.ReservedOpIsRefused := by
  unfold Obligations.ReservedOpIsRefused
  intro s op w z a p
  have hexec : exec (.reserved op w z a p) s = .next (s.reply (.refused (if s.halted then .halted else .reservedOp))) :=
    congrArg _ (refuseEncoding_eq_reply .reservedOp s)
  exact ⟨fun hh => by simp [hexec, hh, State.reply], fun hh => by simp [hexec, hh, State.reply]⟩

/-- The three fields of a status word, from any two codes (R100). -/
theorem statusFields : ∀ (r : BitVec 3) (c : BitVec 2),
    (r.setWidth 8 <<< 2 ||| c.setWidth 8 : Byte).extractLsb' 0 2 = c ∧
    (r.setWidth 8 <<< 2 ||| c.setWidth 8 : Byte).extractLsb' 2 3 = r ∧
    (r.setWidth 8 <<< 2 ||| c.setWidth 8 : Byte).extractLsb' 5 3 = 0 := by decide

/-- Settles O53. -/
theorem statusWordFields : Obligations.StatusWordFields := by
  unfold Obligations.StatusWordFields
  refine ⟨fun st => ?_, fun r => ?_, ?_⟩
  · obtain ⟨hcode, -, hzero⟩ := statusFields _ st.code
    exact ⟨hcode, hzero⟩
  · obtain ⟨-, hreason, -⟩ := statusFields r.code 2
    exact hreason
  · exact ⟨rfl, rfl, fun _ _ => by simp [Status.word, Status.code], rfl, rfl, rfl, rfl, rfl⟩

end Sys2Proof.Machine
end

section
/-! The LCD words on the bus, and RW over a whole trace (30_encoding.md R86 to R88; 41_bit_banger.md R143, R149). -/

namespace Sys2Proof.Machine

/-- With six ACKs an LCD word completes with the six writes of its byte. -/
theorem exec_sendWord {i : Instr} {rs : Bool} {b : Byte} {s : State} (hready : needsReady i = true)
    (hbody : bodyOf i = sendWord (packLcd rs b)) (h : s.cfg.wf = true) (hs : s.accepts) (ha : s.acks 6) :
    exec i s = .next (s.afterSend b (if rs then .data else .cmd)) := by
  rw [exec_eq, hready, hbody, runRequest_of_gate_none (State.gate_of_accepts hs true), sendWord, lcdByte_pack, lcdRs_pack,
    send_of_acks _ _ h ha]
  rfl

/-- The bytes of the LCD command rows as numbers (R88). -/
theorem lcdHomeByte_eq : ∀ u : Bool, lcdHomeByte u = BitVec.ofNat 8 (2 + u.toNat) := by decide

theorem lcdEntryModeByte_eq : ∀ i h : Bool, lcdEntryModeByte i h = BitVec.ofNat 8 (4 + 2 * i.toNat + h.toNat) := by decide

theorem lcdDisplayControlByte_eq : ∀ d c b : Bool,
    lcdDisplayControlByte d c b = BitVec.ofNat 8 (8 + 4 * d.toNat + 2 * c.toNat + b.toNat) := by decide

theorem lcdShiftByte_eq : ∀ (t r : Bool) (u : BitVec 2),
    lcdShiftByte t r u = BitVec.ofNat 8 (16 + 8 * t.toNat + 4 * r.toNat + u.toNat) := by decide

theorem lcdFunctionSetByte_eq : ∀ (l n f : Bool) (u : BitVec 2),
    lcdFunctionSetByte l n f u = BitVec.ofNat 8 (32 + 16 * l.toNat + 8 * n.toNat + 4 * f.toNat + u.toNat) := by decide

theorem lcdSetCgramAddrByte_eq : ∀ a : BitVec 6, lcdSetCgramAddrByte a = BitVec.ofNat 8 (64 + a.toNat) := by decide

theorem lcdSetDdramAddrByte_eq : ∀ a : BitVec 7, lcdSetDdramAddrByte a = BitVec.ofNat 8 (128 + a.toNat) := by decide

/-- Settles O28: each word's body sends its byte. -/
theorem lcdWordsAreSerialised : Obligations.LcdWordsAreSerialised := by
  unfold Obligations.LcdWordsAreSerialised
  intro s h hs ha
  have command {i : Instr} {b c : Byte} (hbody : bodyOf i = sendWord (packLcd false b)) (hready : needsReady i = true) (hb : b = c) :
      exec i s = .next (s.afterSend c .cmd) := by
    rw [← hb]
    exact exec_sendWord (rs := false) hready hbody h hs ha
  exact ⟨command rfl rfl rfl, fun u => command rfl rfl (lcdHomeByte_eq u), fun i h => command rfl rfl (lcdEntryModeByte_eq i h),
    fun d c b => command rfl rfl (lcdDisplayControlByte_eq d c b), fun t r u => command rfl rfl (lcdShiftByte_eq t r u),
    fun l n f u => command rfl rfl (lcdFunctionSetByte_eq l n f u), fun a => command rfl rfl (lcdSetCgramAddrByte_eq a),
    fun a => command rfl rfl (lcdSetDdramAddrByte_eq a), fun d => exec_sendWord (rs := true) rfl rfl h hs ha, command rfl rfl rfl⟩

/-- No step takes an event back. -/
theorem step_trace {s t : State} (hst : step s = .next t) : t.trace = s.trace ++ newEvents s t := by
  suffices hevents : ∃ evs, t.trace = s.trace ++ evs by
    obtain ⟨evs, h⟩ := hevents
    simp [newEvents, h]
  match h : s.inputs with
  | [] =>
    obtain rfl := Host.Outcome.next.inj ((step_nil h).symm.trans hst)
    exact ⟨[], by simp⟩
  | .reset :: rest =>
    obtain rfl := Host.Outcome.next.inj ((step_reset h).symm.trans hst)
    exact ⟨[], by simp⟩
  | .code c :: rest =>
    obtain ⟨st, evs, -, htrace, -⟩ := (step_code_ended h hst).record
    exact ⟨evs, htrace⟩

/-- Settles O44: a write of the new trace is an old one, or one of the step's own, which is driven right. -/
theorem stepKeepsReadWriteLow : Obligations.StepKeepsReadWriteLow := by
  unfold Obligations.StepKeepsReadWriteLow
  intro s t hc hst hold dev b answer hmem
  obtain ⟨hcfg, hevents⟩ := step_driven hc hst
  rw [step_trace hst] at hmem
  rw [hcfg]
  rcases List.mem_append.1 hmem with hmem | hmem
  · exact hold dev b answer hmem
  · obtain ⟨-, hrw, -⟩ := hevents _ hmem
    exact hrw

end Sys2Proof.Machine
end

section
/-! The pseudo-requests (30_encoding.md R98): what SET_BACKLIGHT leaves of the bit, and SET_ROW of its row's codes. -/

namespace Sys2Proof.Machine

/-- With six ACKs SET_BACKLIGHT sends the null command with the bit already written (44_passthrough_ops.md R210). -/
theorem exec_setBacklight_of_acks {s : State} (e : Bool) (h : s.cfg.wf = true) (hs : s.accepts) (ha : s.acks 6) :
    exec (.setBacklight e) s = .next (State.afterSend { s with bl := e } encNull .cmd) := by
  have hsend := send_of_acks (s := { s with bl := e }) encNull .cmd h ha
  rw [exec_eq, runRequest_of_gate_none (State.gate_of_accepts hs _), bodyOf]
  exact congrArg (fun r => Host.Outcome.next r.finish) hsend

theorem reply_cellAt (s : State) (st : Status) (x : Coord) : (s.reply st).cellAt x = s.cellAt x := rfl

theorem markDirty_cellAt (s : State) (x y : Coord) : (s.markDirty x).cellAt y = s.cellAt y := by simp [State.cellAt]

/-- Setting a cell leaves every cell with another number. -/
theorem setCell_cellAt_ne {x y : Coord} (h : y.cell ≠ x.cell) (v : Byte) (s : State) : (setCell x v s).cellAt y = s.cellAt y := by
  unfold setCell
  split
  · rfl
  · rw [markDirty_cellAt]
    exact Memory.read_write_ne h s.grid

/-- A set cell holds its code, whether it was written or held it before. -/
theorem setCell_cellAt_same {s : State} (h : Memory.wf s.cfg.space s.grid = true) (x : Coord) (v : Byte) :
    (setCell x v s).cellAt x = v := by
  unfold setCell
  split
  · next hx => exact hx
  · rw [markDirty_cellAt]
    exact Memory.read_write_same h

theorem setCell_grid_wf {s : State} (h : Memory.wf s.cfg.space s.grid = true) (x : Coord) (v : Byte) :
    Memory.wf (setCell x v s).cfg.space (setCell x v s).grid = true := by
  rw [setCell_cfg]
  unfold setCell
  split
  · exact h
  · rw [State.markDirty_grid]
    exact Memory.wf_write h

/-- The columns from `c` on leave the columns before `c`. -/
theorem setCells_cellAt_of_lt {r c d : Nat} (hd : d < c) (codes : List Byte) (s : State) :
    (setCells r c codes s).cellAt ⟨r, d⟩ = s.cellAt ⟨r, d⟩ := by
  induction codes generalizing c s with
  | nil => rfl
  | cons v codes ih =>
    have hne : Coord.cell ⟨r, d⟩ ≠ Coord.cell ⟨r, c⟩ := by simp only [Coord.cell]; omega
    rw [setCells, ih (by omega), setCell_cellAt_ne hne]

/-- After SET_ROW's columns each holds its code (43_display_memory_ops.md R182). -/
theorem setCells_cellAt {s : State} (h : Memory.wf s.cfg.space s.grid = true) (r c : Nat) (codes : List Byte) {k : Nat}
    (hk : k < codes.length) : (setCells r c codes s).cellAt ⟨r, c + k⟩ = codes[k] := by
  induction codes generalizing c k s with
  | nil => simp at hk
  | cons v codes ih =>
    rw [setCells]
    cases k with
    | zero => exact (setCells_cellAt_of_lt (Nat.lt_succ_self c) codes _).trans (setCell_cellAt_same h _ v)
    | succ k =>
      have hrest := ih (setCell_grid_wf h ⟨r, c⟩ v) (c + 1) (Nat.lt_of_succ_lt_succ hk)
      rwa [Nat.add_assoc, Nat.add_comm 1 k] at hrest

/-- In range and without wrap, SET_ROW sets the 20 columns and returns OK. -/
theorem exec_setRow {s : State} {a : Byte} (text : List Byte) (hs : s.accepts) (ha : a.toNat ≤ 3) :
    exec (.setRow false a text) s = .next ((setCells a.toNat 0 (normalizeText s.cfg.space text) s).reply .ok) := by
  have hrow : ¬ rowOperand a > 3 := Nat.not_lt.2 ha
  rw [exec_eq, runRequest_of_gate_none (State.gate_of_accepts hs _), bodyOf, setRowBody, if_neg Bool.false_ne_true, if_neg hrow,
    Run.finish_done]

/-- An empty text is padded to a blank row (R181). -/
theorem normalizeText_nil_getElem {space : Byte} {c : Nat} (hc : c < (normalizeText space []).length) :
    (normalizeText space [])[c] = space := by
  simp only [normalizeText, List.nil_append, List.take_replicate, List.getElem_replicate]

/-- Settles O54: BLANK_ROW sets each cell of its row to a code of the padded empty text. -/
theorem pseudoRequestsExpand : Obligations.PseudoRequestsExpand := by
  unfold Obligations.PseudoRequestsExpand
  refine ⟨fun s h hs ha => ?_, fun _ _ _ => rfl, fun s r hs hwf hr => ?_⟩
  · exact ⟨.setBacklight (!s.bl), _, rfl, exec_setBacklight_of_acks _ h hs ha, by simp [State.afterSend]⟩
  · refine ⟨_, _, rfl, exec_setRow [] hs hr, fun c hc => ?_⟩
    have hcell := setCells_cellAt hwf r.toNat 0 (normalizeText s.cfg.space []) (k := c) (by rw [normalizeText_length]; exact hc)
    rw [Nat.zero_add] at hcell
    rw [reply_cellAt, hcell, normalizeText_nil_getElem]

end Sys2Proof.Machine
end

section
/-! The encoder's laws, and the words its bytes are (40_command_encoder.md R125 to R133). -/

namespace Sys2Proof.Machine

/-- What a select value that is ORed with its parameter gives (R133 (a) to (d)). -/
theorem select_or_laws (sel p q : Byte) :
    sel ||| 0 = sel ∧ (sel ||| p) &&& sel = sel ∧ sel ||| (p ||| q) = sel ||| p ||| q ∧ sel ||| (sel ||| p) = sel ||| p := by
  refine ⟨BitVec.or_zero, ?_, (BitVec.or_assoc sel p q).symm, ?_⟩
  · ext i hi
    simp only [BitVec.getElem_and, BitVec.getElem_or]
    cases sel[i] <;> simp
  · rw [← BitVec.or_assoc, BitVec.or_self]

/-- Settles O50: every encoder ORs its own select value. -/
theorem encoderLaws : Obligations.EncoderLaws := by
  unfold Obligations.EncoderLaws
  intro c p q f hf
  have hor : f.1 = (f.2 ||| ·) := by
    simp only [List.mem_cons, List.not_mem_nil, or_false] at hf
    rcases hf with rfl | rfl | rfl | rfl | rfl | rfl <;> rfl
  rw [hor]
  exact select_or_laws f.2 p q

/-- The LCD word of each passthrough's byte, its fields those of the documented parameter (30_encoding.md R88). -/
theorem decodeLcd_encEntry_default : ∀ p : Byte, (Instr.setEntryMode p).documented = true →
    decodeLcd (packLcd false (encEntry Config.default p)) = .lcdEntryMode (p.getLsbD 1) (p.getLsbD 0) := by decide

theorem decodeLcd_encDispctl_default : ∀ p : Byte, (Instr.setDisplayControl p).documented = true →
    decodeLcd (packLcd false (encDispctl Config.default p)) =
      .lcdDisplayControl (p.getLsbD 2) (p.getLsbD 1) (p.getLsbD 0) := by decide

theorem decodeLcd_encShift_default : ∀ p : Byte, (Instr.setShift p).documented = true →
    decodeLcd (packLcd false (encShift Config.default p)) = .lcdShift (p.getLsbD 3) (p.getLsbD 2) 0 := by decide

theorem decodeLcd_encFunction_default : ∀ p : Byte, (Instr.setFunction p).documented = true →
    decodeLcd (packLcd false (encFunction Config.default p)) =
      .lcdFunctionSet (p.getLsbD 4) (p.getLsbD 3) (p.getLsbD 2) 0 := by decide

theorem decodeLcd_encCgram_default : ∀ p : Byte, (Instr.setCgramAddr p).documented = true →
    decodeLcd (packLcd false (encCgram Config.default p)) = .lcdSetCgramAddr (p.setWidth 6) := by decide

/-- Settles O51: the mnemonics of the five words. -/
theorem documentedParametersSelectTheirCommand : Obligations.DocumentedParametersSelectTheirCommand := by
  unfold Obligations.DocumentedParametersSelectTheirCommand
  exact fun p => ⟨fun h => congrArg Instr.mnemonic (decodeLcd_encEntry_default p h),
    fun h => congrArg Instr.mnemonic (decodeLcd_encDispctl_default p h),
    fun h => congrArg Instr.mnemonic (decodeLcd_encShift_default p h),
    fun h => congrArg Instr.mnemonic (decodeLcd_encFunction_default p h),
    fun h => congrArg Instr.mnemonic (decodeLcd_encCgram_default p h)⟩

end Sys2Proof.Machine
end

section
/-! Passthroughs in an accepting state (44_passthrough_ops.md R211 to R215). -/

namespace Sys2Proof.Machine

/-- In an accepting state an instruction is its body. -/
theorem exec_of_accepts {s : State} (hs : s.accepts) (i : Instr) : exec i s = .next (bodyOf i s).finish := by
  rw [exec_eq, runRequest_of_gate_none (State.gate_of_accepts hs _)]

/-- With six ACKs an instruction whose body sends one byte completes. -/
theorem exec_send_of_acks {i : Instr} {b : Byte} {m : Mode} {s : State} (hbody : bodyOf i s = send b m s) (h : s.cfg.wf = true)
    (hs : s.accepts) (ha : s.acks 6) : exec i s = .next (s.afterSend b m) := by
  rw [exec_of_accepts hs, hbody, send_of_acks b m h ha, Run.finish_done, State.afterSend]

/-- A NACK at any of the six writes ends such an instruction with TransportError (60_exceptions.md R235). -/
theorem exec_send_of_nacksAt {i : Instr} {b : Byte} {m : Mode} {s : State} {k : Nat} (hbody : bodyOf i s = send b m s)
    (h : s.cfg.wf = true) (hs : s.accepts) (hk : k < 6) (hn : s.nacksAt k) : exec i s = .next (s.afterSendFailed b m k) := by
  rw [exec_of_accepts hs, hbody, send_of_nacksAt b m h hk hn, Run.finish_raised, State.takeError_transport, State.afterSendFailed]

/-- Settles O25: the body of each of the five sends its encoder's byte. -/
theorem parameterPassthroughsSendTheirCommand : Obligations.ParameterPassthroughsSendTheirCommand := by
  unfold Obligations.ParameterPassthroughsSendTheirCommand
  intro s p h hs
  refine ⟨fun ha => ?_, fun k hk hn => ?_⟩
  · have sends {i : Instr} {b : Byte} (hbody : bodyOf i s = send b .cmd s) := exec_send_of_acks hbody h hs ha
    exact ⟨sends rfl, sends rfl, sends rfl, sends rfl, sends rfl⟩
  · have fails {i : Instr} {b : Byte} (hbody : bodyOf i s = send b .cmd s) := exec_send_of_nacksAt hbody h hs hk hn
    exact ⟨fails rfl, fails rfl, fails rfl, fails rfl, fails rfl⟩

end Sys2Proof.Machine
end

section
/-! The bus writes and delay markers of a request (41_bit_banger.md R145; 43_display_memory_ops.md R192 (h); 70_reset_and_hazards.md R274). -/

namespace Sys2Proof.Machine

/-- From `s` to `t` the trace has grown by events of which `n` are bus writes and the others the markers `ks`, in order. -/
def Emitted (s : State) (n : Nat) (ks : List DelayName) (t : State) : Prop :=
  ∃ evs, t.trace = s.trace ++ evs ∧ (writesOf evs).length = n ∧ markersOf evs = ks

/-- An error that is a refusal leaves the trace of `s` (60_exceptions.md R233). -/
def RefusedSilently (s : State) (e : Raise) (t : State) : Prop := ∀ r, e = .refuse r → t.trace = s.trace

theorem Emitted.counts {s t : State} {n : Nat} {ks : List DelayName} (h : Emitted s n ks t) :
    (writesOf (newEvents s t)).length = n ∧ markersOf (newEvents s t) = ks := by
  obtain ⟨evs, htrace, hcounts⟩ := h
  rwa [newEvents, htrace, List.drop_left]

theorem Emitted.refl (s : State) : Emitted s 0 [] s := ⟨[], (List.append_nil _).symm, rfl, rfl⟩

theorem Emitted.congr {s t u : State} {n : Nat} {ks : List DelayName} (h : Emitted s n ks t) (htrace : u.trace = t.trace) :
    Emitted s n ks u := by
  unfold Emitted
  rwa [htrace]

theorem Emitted.written {s t : State} {n : Nat} {ks : List DelayName} (h : Emitted s n ks t) (b : Byte) :
    Emitted s (n + 1) ks (t.written b) := by
  obtain ⟨evs, htrace, rfl, rfl⟩ := h
  exact ⟨evs ++ [.write t.devAddr b (t.answerAt 0)], by simp [htrace], by simp [writesOf], by simp [markersOf]⟩

theorem Emitted.marker {s t u : State} {n : Nat} {ks : List DelayName} {k : DelayName} (h : Emitted s n ks t)
    (htrace : u.trace = t.trace ++ [.delay k]) : Emitted s n (ks ++ [k]) u := by
  obtain ⟨evs, hevs, rfl, rfl⟩ := h
  exact ⟨evs ++ [.delay k], by simp [htrace, hevs], by simp [writesOf], by simp [markersOf]⟩

section
variable {s t : State} {n : Nat} {ks : List DelayName} (h : Emitted s n ks t)
include h

theorem busWrite_emits (b : Byte) : (busWrite b t).Sat (Emitted s (n + 1) ks) (RefusedSilently s) := by
  unfold busWrite
  cases t.answerAt 0 with
  | ack => exact h.written b
  | nack => exact fun _ he => Raise.noConfusion he

/-- A nibble is three writes (41_bit_banger.md R142). -/
theorem write4bits_emits (x : Byte) : (write4bits x t).Sat (Emitted s (n + 3) ks) (RefusedSilently s) :=
  ((busWrite_emits h _).andThen fun _ h => busWrite_emits h _).andThen fun _ h => busWrite_emits h _

/-- A byte is six writes (R145). -/
theorem send_emits (b : Byte) (m : Mode) : (send b m t).Sat (Emitted s (n + 6) ks) (RefusedSilently s) :=
  (write4bits_emits h _).andThen fun _ h => write4bits_emits h _

/-- A completed entry of REFRESH is twelve writes (43_display_memory_ops.md R192 (h)). -/
theorem refreshEntry_emits (x : Coord) : (refreshEntry x t).Sat (Emitted s (n + 12) ks) (RefusedSilently s) := by
  unfold refreshEntry
  split
  · exact (send_emits h _ _).andThen fun _ h => send_emits h _ _
  · exact fun _ he => Raise.noConfusion he

theorem clearBody_emits : (clearBody t).Sat (Emitted s (n + 6) (ks ++ [.clearSettle])) (RefusedSilently s) :=
  (send_emits h _ _).andThen fun u h => h.marker (clearTail_trace u)

end

theorem refreshEntries_emits {s t : State} {n : Nat} {ks : List DelayName} (h : Emitted s n ks t) (xs : List Coord) :
    (refreshEntries xs t).Sat (Emitted s (n + 12 * xs.length) ks) (RefusedSilently s) := by
  induction xs generalizing n t with
  | nil => exact h
  | cons x xs ih =>
    have hcount : n + 12 * (x :: xs).length = n + 12 + 12 * xs.length := by
      rw [List.length_cons]
      omega
    rw [hcount]
    exact (refreshEntry_emits h x).andThen fun _ h => ih h

/-- INIT is two nibbles and two bytes, with four markers (42_initialization.md R167). -/
theorem initBody_emits (a : Byte) (s : State) : (initBody a s).Sat
    (Emitted s 18 [.powerOnWait, .initNibbleDelay, .initNibbleDelay, .clearSettle]) (RefusedSilently s) := by
  have hwait : Emitted s 0 [.powerOnWait] (initWait (initReset a s)) := (Emitted.refl s).marker rfl
  have hforce : (initForce (initWait (initReset a s))).Sat
      (Emitted s 6 [.powerOnWait, .initNibbleDelay, .initNibbleDelay]) (RefusedSilently s) :=
    ((write4bits_emits hwait _).andThen fun t h => write4bits_emits (h.marker (State.delay_trace t _)) _).andThen
      fun t h => h.marker (State.delay_trace t _)
  exact ((hforce.andThen fun _ h => clearBody_emits h).andThen fun _ h => send_emits h _ _).andThen fun _ h => h.congr rfl

/-- A body that completes has made the writes and markers of its instruction, and one that refuses has made none. -/
theorem bodyOf_emits (i : Instr) (s : State) : (bodyOf i s).Sat (Emitted s (writeCount s i) (markers i)) (RefusedSilently s) := by
  have hs := Emitted.refl s
  cases i
  case init a => exact initBody_emits a s
  case setRow w a text =>
    exact setRowBody_sat text (fun x v t _ h => h.congr (setCell_trace x v t)) (fun _ _ => rfl)
      (fun _ _ _ he => Raise.noConfusion he) hs
  case refresh =>
    have hentries := refreshEntries_emits hs s.dirty
    rw [Nat.zero_add] at hentries
    exact hentries.andThen fun _ h => h.congr rfl
  case clear => exact clearBody_emits hs
  case home => exact (send_emits hs _ _).andThen fun _ h => h.marker rfl
  case setBacklight e => exact send_emits (hs.congr (u := { s with bl := e }) rfl) _ _
  case reserved => exact fun _ _ => rfl
  all_goals exact send_emits hs _ _

/-- Only a run that completed returns OK (60_exceptions.md R230). -/
theorem Run.eq_done_of_ok {r : Run} (h : r.finish.replies.getLast? = some .ok) : ∃ u, r = .done u := by
  match r with
  | .done u => exact ⟨u, rfl⟩
  | .raised .transport u => simp at h
  | .raised (.coordinate row col) u => simp at h
  | .raised (.refuse x) u => simp at h

/-- Only a run that raised a refusal is refused. -/
theorem Run.eq_raised_of_refused {r : Run} {x : Reason} (h : r.finish.replies.getLast? = some (.refused x)) :
    ∃ u, r = .raised (.refuse x) u := by
  match r with
  | .done u => simp at h
  | .raised .transport u => simp at h
  | .raised (.coordinate row col) u => simp at h
  | .raised (.refuse y) u =>
    obtain rfl : y = x := by simpa using h
    exact ⟨u, rfl⟩

/-- Settles O47: the status tells how the body's run ended, and so what it emitted. -/
theorem writeAndMarkerCounts : Obligations.WriteAndMarkerCounts := by
  unfold Obligations.WriteAndMarkerCounts
  intro i s t _ _ he
  obtain ⟨r, hr, hsat⟩ := exec_eq_finish (bodyOf_emits i s) fun _ _ _ => rfl
  obtain rfl : r.finish = t := Host.Outcome.next.inj (hr.symm.trans he)
  refine ⟨fun hok => ?_, fun x hx => ?_⟩
  · obtain ⟨u, rfl⟩ := Run.eq_done_of_ok (r := r) (by simp [hok])
    exact Emitted.counts (hsat.congr (State.reply_trace u .ok))
  · obtain ⟨u, rfl⟩ := Run.eq_raised_of_refused (r := r) (x := x) (by simp [hx])
    have htrace : u.trace = s.trace := hsat x rfl
    simp [newEvents, htrace]

end Sys2Proof.Machine
end

section
/-! A complete INIT and the trace of the default instance (42_initialization.md R160 to R167). -/

namespace Sys2Proof.Machine

/-- Once past the HALTED pre-check, in every `init_state`, INIT is its body (42_initialization.md R160). -/
theorem exec_init_of_not_halted {s : State} (hh : s.halted = false) (a : Byte) : exec (.init a) s = .next (initBody a s).finish := by
  rw [exec_eq, needsReady, runRequest_of_gate_none (State.gate_false hh), bodyOf]

/-- Settles O13: the body with every write ACKed, and status OK. -/
theorem initCompletes : Obligations.InitCompletes := by
  unfold Obligations.InitCompletes
  intro s a h hh ha
  rw [exec_init_of_not_halted hh, initBody_of_acks a h ha]
  rfl

/-- Settles O14: the bytes of each nibble, computed from the default masks and select values. -/
theorem initTraceOfTheDefaultInstance : Obligations.InitTraceOfTheDefaultInstance := fun _ => ⟨rfl, rfl⟩

end Sys2Proof.Machine
end

section
/-! What INIT leaves alone, and the construction values it leaves on every outcome (42_initialization.md R160, R161, R168). -/

namespace Sys2Proof.Machine

/-- The state with the fields erased that INIT writes after its construction values. -/
def State.eraseProgress (s : State) : State :=
  { s with initState := .uninit, linkUnknown := false, replies := [], trace := [], answers := [], draws := 0 }

/-- `t` differs from the construction values of an INIT of `a` from `s` in those fields only. -/
def Constructed (a : Byte) (s t : State) : Prop := t.eraseProgress = (initReset a s).eraseProgress

section
variable {a : Byte} {s t : State} (h : Constructed a s t)
include h

theorem Constructed.cfg : t.cfg = s.cfg := (congrArg State.cfg h :)

theorem Constructed.bl : t.bl = s.cfg.backlightReset := congrArg State.bl h

theorem Constructed.cursor : t.cursor = ⟨0, 0⟩ := congrArg State.cursor h

theorem Constructed.devAddr : t.devAddr = a := congrArg State.devAddr h

theorem Constructed.halted : t.halted = s.halted := (congrArg State.halted h :)

theorem Constructed.grid : t.grid = [] := congrArg State.grid h

theorem Constructed.dirty : t.dirty = [] := congrArg State.dirty h

theorem Constructed.inputs : t.inputs = s.inputs := (congrArg State.inputs h :)

/-- CLEAR's own changes do nothing to the construction values, so its tail is the settle marker (R164). -/
theorem Constructed.clearTail_eq : clearTail t = t.delay .clearSettle := by
  apply State.ext_fields <;> simp [h.cursor, h.grid, h.dirty]

theorem Constructed.clearTail : Constructed a s (clearTail t) := by
  rw [h.clearTail_eq]
  exact h

end

theorem constructed_initWait (a : Byte) (s : State) : Constructed a s (initWait (initReset a s)) := rfl

/-- A bus write keeps the construction values, and a NACK is the only error INIT meets. -/
theorem constructed_busRule (a : Byte) (s : State) : BusRule (Constructed a s) fun e t => e = .transport ∧ Constructed a s t where
  ack _ _ h _ := h
  nack _ _ h _ := ⟨rfl, h⟩

/-- INIT's body ends with its construction values, failed or not. -/
theorem initBody_constructed (a : Byte) (s : State) :
    (initBody a s).Sat (Constructed a s) fun e t => e = .transport ∧ Constructed a s t :=
  initBody_sat (constructed_busRule a s) (fun _ _ h => h) (fun _ h => h.clearTail) (fun _ h => h) (constructed_initWait a s)

/-- Where an INIT ends that is not refused: with its construction values, whatever its outcome. -/
theorem exec_init_constructed {a : Byte} {s t : State} (hh : s.halted = false) (he : exec (.init a) s = .next t) :
    Constructed a s t := by
  rw [exec_init_of_not_halted hh] at he
  obtain rfl := Host.Outcome.next.inj he
  refine (initBody_constructed a s).finish (fun _ h => h) fun e u hu => ?_
  obtain ⟨rfl, h⟩ := hu
  exact h

/-- Settles O33: a halted block refuses, and any other INIT ends with its construction values, an empty grid among them. -/
theorem initFrame : Obligations.InitFrame := by
  unfold Obligations.InitFrame
  intro a s t _ he
  rcases Bool.eq_false_or_eq_true s.halted with hh | hh
  · obtain rfl := Host.Outcome.next.inj ((exec_of_halted hh _).symm.trans he)
    exact ⟨rfl, rfl, rfl, fun _ => rfl, fun hf => by simp [hh] at hf⟩
  · have h := exec_init_constructed hh he
    refine ⟨h.cfg, h.halted, h.inputs, fun ht => by simp [hh] at ht, fun _ => ⟨h.devAddr, h.bl, h.cursor, h.dirty, fun k => ?_⟩⟩
    rw [h.grid, h.cfg, Memory.read_nil]

end Sys2Proof.Machine
end

section
/-! SUPPORT. Bus writes and delay markers in one list: what performing its events does, up to the first NACK. -/

namespace Sys2Proof.Machine

/-- Perform the events in order, up to the first NACK: a write of its byte to `dev_addr`, or a delay. -/
def runEvents : List Event → State → Run
  | [], s => .done s
  | .write _ b _ :: es, s => (busWrite b s).andThen (runEvents es)
  | .delay k :: es, s => runEvents es (s.delay k)

/-- The state after the events `es` with every write ACKed, and then a NACKed write of `b`. -/
def State.afterEventsNack (s : State) (es : List Event) (b : Byte) : State :=
  { s with
    trace := s.trace ++ es ++ [.write s.devAddr b .nack]
    answers := s.answers.drop ((writesOf es).length + 1)
    draws := s.draws + ((writesOf es).length + 1) }

theorem runEvents_append (es fs : List Event) (s : State) : runEvents (es ++ fs) s = (runEvents es s).andThen (runEvents fs) := by
  induction es generalizing s with
  | nil => rfl
  | cons e es ih =>
    cases e with
    | delay k => exact ih (s.delay k)
    | write dev b answer =>
      rw [List.cons_append, runEvents, runEvents, Run.andThen_assoc]
      exact congrArg (busWrite b s).andThen (funext ih)

/-- Writes alone are performed as their bytes. -/
theorem runEvents_ackedWrites (dev : Byte) (bs : List Byte) (s : State) : runEvents (ackedWrites dev bs) s = runBytes bs s := by
  induction bs generalizing s with
  | nil => rfl
  | cons b bs ih => exact congrArg (busWrite b s).andThen (funext ih)

/-- What writes and delays keep, a list of them keeps. -/
theorem runEvents_sat {P : State → Prop} {R : Raise → State → Prop} (h : BusRule P R) (hdelay : ∀ k t, P t → P (t.delay k))
    (es : List Event) {s : State} (hs : P s) : (runEvents es s).Sat P R := by
  induction es generalizing s with
  | nil => exact hs
  | cons e es ih =>
    cases e with
    | delay k => exact ih (hdelay k s hs)
    | write dev b answer => exact (busWrite_sat h b hs).andThen fun _ => ih

/-- The writes of the list are ACKed ones to `dev`. -/
def AckedTo (dev : Byte) (es : List Event) : Prop := ∀ e ∈ es, ∀ d b answer, e = .write d b answer → d = dev ∧ answer = .ack

theorem ackedTo_append {dev : Byte} {es fs : List Event} : AckedTo dev (es ++ fs) ↔ AckedTo dev es ∧ AckedTo dev fs :=
  List.forall_mem_append

theorem ackedTo_delay (dev : Byte) (k : DelayName) : AckedTo dev [.delay k] := by
  simp [AckedTo]

theorem ackedTo_ackedWrites (dev : Byte) (bs : List Byte) : AckedTo dev (ackedWrites dev bs) := by
  simp +contextual [AckedTo, ackedWrites, eq_comm]

/-- A list of events for `dev_addr` whose write `k` meets the first NACK: the events before that write are performed, it is recorded as
NACKed, and TransportError is raised (60_exceptions.md R235, R236). -/
theorem runEvents_of_nacksAt {es : List Event} {s : State} {k : Nat} (hes : AckedTo s.devAddr es) (hk : k < (writesOf es).length) (hn : s.nacksAt k) :
    ∃ n b, es[n]? = some (.write s.devAddr b .ack) ∧ (writesOf (es.take n)).length = k ∧
      runEvents es s = .raised .transport (s.afterEventsNack (es.take n) b) := by
  induction es generalizing s k with
  | nil => exact absurd hk (Nat.not_lt_zero k)
  | cons e es ih =>
    have hrest : AckedTo s.devAddr es := fun e he => hes e (List.mem_cons_of_mem _ he)
    cases e with
    | delay d =>
      obtain ⟨n, b, hget, hcount, hrun⟩ := ih (s := s.delay d) hrest hk hn
      refine ⟨n + 1, b, hget, hcount, hrun.trans ?_⟩
      simp [State.afterEventsNack, State.delay, writesOf]
    | write dev b answer =>
      obtain ⟨rfl, rfl⟩ := hes _ List.mem_cons_self dev b answer rfl
      obtain ⟨hacks, hnack⟩ := hn
      cases k with
      | zero =>
        refine ⟨0, b, rfl, rfl, ?_⟩
        simp [runEvents, busWrite, hnack, State.afterEventsNack, State.written, writesOf]
      | succ k =>
        have hack : s.answerAt 0 = .ack := hacks 0 (Nat.succ_pos k)
        have hahead : (s.written b).nacksAt k :=
          ⟨fun j hj => by rw [State.answerAt_written]; exact hacks _ (Nat.succ_lt_succ hj), by rw [State.answerAt_written]; exact hnack⟩
        obtain ⟨n, c, hget, hcount, hrun⟩ := ih (s := s.written b) hrest (Nat.lt_of_succ_lt_succ hk) hahead
        refine ⟨n + 1, c, hget, congrArg Nat.succ hcount, ?_⟩
        rw [runEvents, busWrite, hack]
        refine hrun.trans ?_
        simp [State.afterEventsNack, State.written, hack, writesOf, Nat.add_assoc, Nat.add_comm 1]

end Sys2Proof.Machine
end

section
/-! A NACK at any of INIT's writes (42_initialization.md R168): INIT's body performs the events of its closed trace. -/

namespace Sys2Proof.Machine

/-- From every state with the construction values of an INIT of `a` from `s`, `f` performs the events `es`. -/
def Performs (a : Byte) (s : State) (f : State → Run) (es : List Event) : Prop := ∀ t, Constructed a s t → f t = runEvents es t

section
variable {a : Byte} {s : State} {f g : State → Run} {es fs : List Event}

theorem Performs.andThen (hf : Performs a s f es) (hg : Performs a s g fs) :
    Performs a s (fun t => (f t).andThen g) (es ++ fs) := fun t ht => by
  have hkept := runEvents_sat (constructed_busRule a s) (fun _ _ h => h) es ht
  show (f t).andThen g = _
  rw [hf t ht, runEvents_append]
  cases hr : runEvents es t with
  | done u => exact hg u (by rwa [hr] at hkept)
  | raised e u => rfl

theorem Performs.afterDelay (hf : Performs a s f es) (k : DelayName) : Performs a s (fun t => f (t.delay k)) (.delay k :: es) :=
  fun t ht => hf (t.delay k) ht

theorem performs_delay (a : Byte) (s : State) (k : DelayName) : Performs a s (fun t => .done (t.delay k)) [.delay k] :=
  fun _ _ => rfl

theorem performs_clearTail (a : Byte) (s : State) : Performs a s (fun t => .done (clearTail t)) [.delay .clearSettle] :=
  fun _ ht => congrArg Run.done ht.clearTail_eq

section
variable (a) (hwf : s.cfg.wf = true)
include hwf

/-- A forcing nibble is its three writes (R163). -/
theorem performs_write4bits {n : Byte} (hn : n &&& 0xF0 = n) :
    Performs a s (write4bits n) (ackedWrites a (nibbleBytes s.cfg s.cfg.backlightReset n)) := fun t ht => by
  have hwt : t.cfg.wf = true := ht.cfg ▸ hwf
  obtain ⟨-, -, hen, -⟩ := Config.wf_masks hwt
  rw [write4bits_eq hwt (dataNibble_and_mask hn hen), runEvents_ackedWrites, ht.cfg, ht.bl]

theorem performs_send (sel : Config → Byte) :
    Performs a s (fun t => send (sel t.cfg) .cmd t) (ackedWrites a (sendBytes s.cfg s.cfg.backlightReset (sel s.cfg) .cmd)) :=
  fun t ht => by
    show send (sel t.cfg) .cmd t = _
    rw [send_eq _ _ (ht.cfg ▸ hwf), runEvents_ackedWrites, ht.cfg, ht.bl]

theorem performs_initForce : Performs a s initForce
    ((ackedWrites a (nibbleBytes s.cfg s.cfg.backlightReset 0x00) ++
      .delay .initNibbleDelay :: ackedWrites a (nibbleBytes s.cfg s.cfg.backlightReset 0x20)) ++ [.delay .initNibbleDelay]) :=
  ((performs_write4bits a hwf (by decide)).andThen ((performs_write4bits a hwf (by decide)).afterDelay _)).andThen (performs_delay a s _)

theorem performs_clearBody : Performs a s clearBody
    (ackedWrites a (sendBytes s.cfg s.cfg.backlightReset s.cfg.selClear .cmd) ++ [.delay .clearSettle]) :=
  (performs_send a hwf encClear).andThen (performs_clearTail a s)

theorem performs_initDisplayOn : Performs a s initDisplayOn
    (ackedWrites a (sendBytes s.cfg s.cfg.backlightReset (s.cfg.selDispctl ||| 0x04) .cmd)) :=
  performs_send a hwf (encDispctl · initDisplayParam)

end
end

/-- The state in which INIT makes its first event: the construction values, FORCING (R161, R162). -/
def initStart (a : Byte) (s : State) : State := { initReset a s with initState := .forcing }

/-- INIT's body performs the events of its complete trace and then enters READY (R162 to R167). -/
theorem initBody_eq (a : Byte) {s : State} (hwf : s.cfg.wf = true) :
    initBody a s = (runEvents (initTrace s.cfg a s.cfg.backlightReset) (initStart a s)).andThen fun t =>
      .done { t with initState := .ready } := by
  have hsteps := ((((performs_initForce a hwf).andThen (performs_clearBody a hwf)).andThen (performs_initDisplayOn a hwf)).afterDelay
    .powerOnWait) (initStart a s) rfl
  exact congrArg (Run.andThen · _) hsteps

/-- INIT makes 18 bus writes (R167). -/
theorem writesOf_initTrace_length (c : Config) (dev : Byte) (bl : Bool) : (writesOf (initTrace c dev bl)).length = 18 := rfl

/-- They all go to its device, ACKed. -/
theorem ackedTo_initTrace (c : Config) (dev : Byte) (bl : Bool) : AckedTo dev (initTrace c dev bl) := by
  simp only [initTrace, ackedTo_append, ackedTo_delay, ackedTo_ackedWrites, and_self]

/-- Settles O15: of the events INIT performs, the NACKed one is the last. -/
theorem initFailureStaysForcing : Obligations.InitFailureStaysForcing := by
  unfold Obligations.InitFailureStaysForcing
  intro s a k hwf hh hk hn
  obtain ⟨n, b, hget, hcount, hrun⟩ := runEvents_of_nacksAt (es := initTrace s.cfg a s.cfg.backlightReset) (s := initStart a s)
    (ackedTo_initTrace _ _ _) (by rwa [writesOf_initTrace_length]) hn
  refine ⟨n, b, hget, hcount, ?_⟩
  rw [exec_init_of_not_halted hh, initBody_eq a hwf, hrun, Run.andThen_raised, Run.finish_raised, State.takeError_transport, ← hcount]
  rfl

end Sys2Proof.Machine
end

section
/-! What SET_ROW can do (43_display_memory_ops.md R181 to R184). -/

namespace Sys2Proof.Machine

/-- Settles O18: a code of the padded text is one of the text's own, or one of the padding. -/
theorem normalizedTextIsPaddedOrCut : Obligations.NormalizedTextIsPaddedOrCut := by
  unfold Obligations.NormalizedTextIsPaddedOrCut
  refine fun space text => ⟨normalizeText_length space text, fun c hc => ?_⟩
  rw [normalizeText, List.getElem?_take_of_lt hc]
  by_cases ht : c < text.length
  · simp [List.getElem?_append_left ht, ht]
  · have hpad : c - text.length < 20 := by omega
    simp [List.getElem?_append_right (Nat.le_of_not_lt ht), Nat.le_of_not_lt ht, hpad]

/-- Everything an instruction that needs READY can do: refused where the block does not accept requests, and its body elsewhere. -/
theorem exec_cases {i : Instr} {s t : State} (hi : needsReady i = true) (he : exec i s = .next t) :
    (¬ s.accepts ∧ ∃ r, t = s.reply (.refused r)) ∨ (s.accepts ∧ t = (bodyOf i s).finish) := by
  by_cases hs : s.accepts
  · exact .inr ⟨hs, (Host.Outcome.next.inj ((exec_of_accepts hs i).symm.trans he)).symm⟩
  · rw [exec_eq] at he
    obtain rfl := Host.Outcome.next.inj he
    rcases runRequest_cases (needsReady i) (bodyOf i) s with ⟨r, -, hr⟩ | ⟨hh, hready, -⟩
    · exact .inl ⟨hs, r, hr⟩
    · exact absurd ⟨hh, hready hi⟩ hs

/-- Settles O10: the wrap flag is looked at before the row. -/
theorem setRowWithWrapIsRefused : Obligations.SetRowWithWrapIsRefused := by
  unfold Obligations.SetRowWithWrapIsRefused
  intro s a text hs
  rw [exec_of_accepts hs, bodyOf, setRowBody, if_pos rfl, Run.finish_raised, State.takeError_refuse, State.reply]

theorem setRowBody_of_gt {a : Byte} (ha : 3 < a.toNat) (text : List Byte) (s : State) :
    setRowBody false a text s = .raised (.coordinate a.toNat none) s := by
  rw [setRowBody, if_neg Bool.false_ne_true, if_pos ha]

/-- Settles O17: the row is looked at before the columns. -/
theorem setRowOutOfRangeHalts : Obligations.SetRowOutOfRangeHalts := by
  unfold Obligations.SetRowOutOfRangeHalts
  intro s a text hs ha
  rw [exec_of_accepts hs, bodyOf, setRowBody_of_gt ha, Run.finish_raised, State.takeError_coordinate]

/-- Everything SET_ROW can do: its 20 columns set, halted for its row, or refused. -/
theorem exec_setRow_cases {w : Bool} {a : Byte} {text : List Byte} {s t : State} (he : exec (.setRow w a text) s = .next t) :
    (a.toNat ≤ 3 ∧ s.accepts ∧ t = (setCells a.toNat 0 (normalizeText s.cfg.space text) s).reply .ok) ∨
    (3 < a.toNat ∧ t = s.takeError (.coordinate a.toNat none)) ∨
    ((w = true ∨ ¬ s.accepts) ∧ ∃ r, t = s.reply (.refused r)) := by
  rcases exec_cases rfl he with ⟨hs, hr⟩ | ⟨hs, rfl⟩
  · exact .inr (.inr ⟨.inr hs, hr⟩)
  · cases w with
    | true => exact .inr (.inr ⟨.inl rfl, _, rfl⟩)
    | false =>
      by_cases ha : 3 < a.toNat
      · exact .inr (.inl ⟨ha, by rw [bodyOf, setRowBody_of_gt ha, Run.finish_raised]⟩)
      · have hrow := (exec_setRow text hs (Nat.le_of_not_lt ha)).symm.trans he
        exact .inl ⟨Nat.le_of_not_lt ha, hs, (Host.Outcome.next.inj hrow).symm⟩

end Sys2Proof.Machine
end

section
/-! SUPPORT. The columns of SET_ROW: the cells they leave alone, and the entries they append to the dirty list
(43_display_memory_ops.md R182, R185, R186). -/

namespace Sys2Proof.Machine

/-- A cell that holds its code is left alone (R185). -/
theorem setCell_of_holds {x : Coord} {v : Byte} {s : State} (h : s.cellAt x = v) : setCell x v s = s := if_pos h

/-- Setting a cell leaves every other number of the grid. -/
theorem setCell_read_of_ne {x : Coord} {k : Nat} (h : k ≠ x.cell) (v : Byte) (s : State) :
    Memory.read s.cfg.space (setCell x v s).grid k = Memory.read s.cfg.space s.grid k := by
  have hk : (⟨0, k⟩ : Coord).cell = k := by simp [Coord.cell]
  simpa [State.cellAt, hk] using setCell_cellAt_ne (y := ⟨0, k⟩) (by rwa [hk]) v s

/-- Setting the columns leaves every number of the grid that is none of theirs. -/
theorem setCells_read_of_ne {r c k : Nat} {codes : List Byte}
    (h : ∀ d, c ≤ d → d < c + codes.length → k ≠ (⟨r, d⟩ : Coord).cell) (s : State) :
    Memory.read s.cfg.space (setCells r c codes s).grid k = Memory.read s.cfg.space s.grid k := by
  induction codes generalizing c s with
  | nil => rfl
  | cons v codes ih =>
    rw [List.length_cons] at h
    have hrest := ih (c := c + 1) (fun d hd hlt => h d (by omega) (by omega)) (setCell ⟨r, c⟩ v s)
    rw [setCell_cfg] at hrest
    rw [setCells, hrest, setCell_read_of_ne (h c (Nat.le_refl c) (by omega))]

/-- A row that holds its codes is left alone. -/
theorem setCells_of_holds {r c : Nat} {codes : List Byte} {s : State}
    (h : ∀ k (hk : k < codes.length), s.cellAt ⟨r, c + k⟩ = codes[k]) : setCells r c codes s = s := by
  induction codes generalizing c with
  | nil => rfl
  | cons v codes ih =>
    have hrest : ∀ k (hk : k < codes.length), s.cellAt ⟨r, c + 1 + k⟩ = codes[k] := fun k hk => by
      have hnext := h (k + 1) (Nat.succ_lt_succ hk)
      rwa [← Nat.add_assoc, Nat.add_right_comm] at hnext
    have hfirst : setCell ⟨r, c⟩ v s = s := setCell_of_holds (h 0 (Nat.succ_pos _))
    rw [setCells, hfirst, ih hrest]

/-- SET_ROW has an entry to append for cell `x` of its row: the code of its column differs, and it is not dirty yet (R185). -/
def marks (s : State) (code : Nat → Byte) (x : Coord) : Bool := decide (s.cellAt x ≠ code x.col) && decide (x ∉ s.dirty)

theorem setCell_dirty (x : Coord) (code : Nat → Byte) (s : State) :
    (setCell x (code x.col) s).dirty = s.dirty ++ [x].filter (marks s code) := by
  by_cases hc : s.cellAt x = code x.col
  · simp [setCell, marks, hc]
  · by_cases hd : x ∈ s.dirty <;> simp [setCell, State.markDirty, marks, hc, hd]

/-- Setting a cell decides nothing for a cell with another number. -/
theorem marks_setCell {x y : Coord} (h : y.cell ≠ x.cell) (code : Nat → Byte) (s : State) :
    marks (setCell x (code x.col) s) code y = marks s code y := by
  have hne : y ≠ x := fun he => h (congrArg Coord.cell he)
  have hmem : y ∈ (setCell x (code x.col) s).dirty ↔ y ∈ s.dirty := by
    rw [setCell_dirty, List.mem_append, List.mem_filter, List.mem_singleton, or_iff_left fun hx => hne hx.1]
  simp only [marks, setCell_cellAt_ne h, hmem]

/-- The `n` cells of row `r` from column `c` on. -/
def cellsFrom (r c n : Nat) : List Coord := (List.range' c n).map fun d => ⟨r, d⟩

theorem cellsFrom_succ (r c n : Nat) : cellsFrom r c (n + 1) = [⟨r, c⟩] ++ cellsFrom r (c + 1) n := rfl

theorem cell_lt_of_mem_cellsFrom {r c n : Nat} {y : Coord} (hy : y ∈ cellsFrom r (c + 1) n) : (⟨r, c⟩ : Coord).cell < y.cell := by
  obtain ⟨d, hd, rfl⟩ := List.mem_map.1 hy
  have hlt : c < d := (List.mem_range'_1.1 hd).1
  simp only [Coord.cell]
  omega

/-- The columns from `c` on append the entries that the state before them has to append, ascending (R186). -/
theorem setCells_dirty (r c n : Nat) (code : Nat → Byte) (s : State) :
    (setCells r c ((List.range' c n).map code) s).dirty = s.dirty ++ (cellsFrom r c n).filter (marks s code) := by
  induction n generalizing c s with
  | zero => exact (List.append_nil _).symm
  | succ n ih =>
    have hrest : (cellsFrom r (c + 1) n).filter (marks (setCell ⟨r, c⟩ (code c) s) code) =
        (cellsFrom r (c + 1) n).filter (marks s code) :=
      List.filter_congr fun y hy => marks_setCell (x := ⟨r, c⟩) (Nat.ne_of_gt (cell_lt_of_mem_cellsFrom hy)) code s
    calc (setCells r c ((List.range' c (n + 1)).map code) s).dirty
      _ = (setCell ⟨r, c⟩ (code c) s).dirty ++ (cellsFrom r (c + 1) n).filter (marks (setCell ⟨r, c⟩ (code c) s) code) :=
        ih (c + 1) _
      _ = s.dirty ++ [⟨r, c⟩].filter (marks s code) ++ (cellsFrom r (c + 1) n).filter (marks s code) := by
        rw [hrest, setCell_dirty ⟨r, c⟩ code s]
      _ = s.dirty ++ (cellsFrom r c (n + 1)).filter (marks s code) := by
        rw [cellsFrom_succ, List.filter_append, List.append_assoc]

/-- A list is read off by its own numbers. -/
theorem eq_map_getD (codes : List Byte) : codes = (List.range codes.length).map (codes.getD · 0) :=
  List.ext_getElem (by simp) fun k hk _ => by simp [hk]

/-- SET_ROW's columns append the row's changes. -/
theorem setCells_dirty_row (r : Nat) {codes : List Byte} (h : codes.length = 20) (s : State) :
    (setCells r 0 codes s).dirty = s.dirty ++ rowChanges s r codes := by
  have hcodes : codes = (List.range' 0 20).map (codes.getD · 0) := by
    rw [← List.range_eq_range', ← h]
    exact eq_map_getD codes
  conv_lhs => rw [hcodes]
  rw [setCells_dirty, cellsFrom, ← List.range_eq_range']
  rfl

end Sys2Proof.Machine
end

section
/-! SET_ROW completed: its cells, the entries it appends, and what it leaves alone (43_display_memory_ops.md R182, R186, R192). -/

namespace Sys2Proof.Machine

/-- After SET_ROW's columns each cell of the row holds its code of the padded text. -/
theorem setCells_cellAt_row {s : State} (h : Memory.wf s.cfg.space s.grid = true) (r : Nat) (text : List Byte) {c : Nat} (hc : c < 20) :
    (setCells r 0 (normalizeText s.cfg.space text) s).cellAt ⟨r, c⟩ = (normalizeText s.cfg.space text).getD c 0 := by
  have hlt : c < (normalizeText s.cfg.space text).length := by rwa [normalizeText_length]
  have hcell := setCells_cellAt h r 0 _ hlt
  rwa [Nat.zero_add, ← List.getD_eq_getElem _ 0] at hcell

/-- A row that holds a padded text is left alone by that text's columns. -/
theorem setCells_row_of_holds {r : Nat} {text : List Byte} {s : State}
    (h : ∀ c, c < 20 → s.cellAt ⟨r, c⟩ = (normalizeText s.cfg.space text).getD c 0) :
    setCells r 0 (normalizeText s.cfg.space text) s = s :=
  setCells_of_holds fun k hk => by
    rw [Nat.zero_add, h k (by rwa [normalizeText_length] at hk), List.getD_eq_getElem]

/-- The columns of a row leave every number of the grid that is not of the row. -/
theorem setCells_row_read {r k : Nat} {text : List Byte} {s : State} (h : ∀ c, c < 20 → k ≠ (⟨r, c⟩ : Coord).cell) :
    Memory.read s.cfg.space (setCells r 0 (normalizeText s.cfg.space text) s).grid k = Memory.read s.cfg.space s.grid k :=
  setCells_read_of_ne (fun d _ hd => h d (by rwa [normalizeText_length, Nat.zero_add] at hd)) s

/-- Settles O16: the columns of the row, then status OK. -/
theorem setRowWritesItsRow : Obligations.SetRowWritesItsRow := by
  unfold Obligations.SetRowWritesItsRow
  intro s a text hs hwf ha
  refine ⟨_, exec_setRow text hs ha, ?_, fun c hc => setCells_cellAt_row hwf _ text hc, fun k hk => ?_⟩
  · apply State.ext_fields <;> simp [setCells_dirty_row _ (normalizeText_length _ _)]
  · rw [State.reply_cfg, setCells_cfg]
    exact setCells_row_read hk

/-- With no entry of the row dirty its changes are the columns where the row's codes differ from the new ones. -/
theorem rowChanges_of_clean {s : State} {r : Nat} {old new : List Byte} (hclean : ∀ x ∈ s.dirty, x.row ≠ r)
    (hold : ∀ c, c < 20 → s.cellAt ⟨r, c⟩ = old.getD c 0) :
    rowChanges s r new = ((List.range 20).filter fun c => decide (old.getD c 0 ≠ new.getD c 0)).map fun c => ⟨r, c⟩ := by
  rw [rowChanges, List.filter_map]
  refine congrArg _ (List.filter_congr fun c hc => ?_)
  have hnew : (⟨r, c⟩ : Coord) ∉ s.dirty := fun hd => hclean _ hd rfl
  simp [hold c (List.mem_range.1 hc), hnew]

/-- A second SET_ROW of the same row and text changes neither the grid nor the dirty list: only a completed one sets cells, and where it
completes the first one has completed (R192 (b)). -/
theorem exec_setRow_twice {a : Byte} {text : List Byte} {s t u : State} (hwf : Memory.wf s.cfg.space s.grid = true)
    (ht : exec (.setRow false a text) s = .next t) (hu : exec (.setRow false a text) t = .next u) :
    u.grid = t.grid ∧ u.dirty = t.dirty := by
  rcases exec_setRow_cases hu with ⟨ha, hacc, rfl⟩ | ⟨-, rfl⟩ | ⟨-, r, rfl⟩
  · rcases exec_setRow_cases ht with ⟨-, -, rfl⟩ | ⟨hgt, -⟩ | ⟨hw | hs, r, rfl⟩
    · rw [setCells_row_of_holds fun c hc => ?_]
      · exact ⟨rfl, rfl⟩
      · rw [reply_cellAt, State.reply_cfg, setCells_cfg, setCells_cellAt_row hwf _ text hc]
    · omega
    · cases hw
    · exact absurd hacc hs
  · exact ⟨rfl, rfl⟩
  · exact ⟨rfl, rfl⟩

/-- Settles O19: the row's changes when it is clean, and a second SET_ROW. -/
theorem setRowIsMinimalAndIdempotent : Obligations.SetRowIsMinimalAndIdempotent := by
  unfold Obligations.SetRowIsMinimalAndIdempotent
  refine ⟨fun s t a old new hs _ ha hclean hold he => ?_, fun s t u a text hwf ht hu => exec_setRow_twice hwf ht hu⟩
  obtain rfl := Host.Outcome.next.inj ((exec_setRow new hs ha).symm.trans he)
  rw [State.reply_dirty, setCells_dirty_row _ (normalizeText_length _ _), rowChanges_of_clean hclean hold]

/-- Settles O32: each of SET_ROW's outcomes. -/
theorem setRowFrame : Obligations.SetRowFrame := by
  unfold Obligations.SetRowFrame
  intro w a text s t he
  rcases exec_setRow_cases he with ⟨ha, -, rfl⟩ | ⟨-, rfl⟩ | ⟨-, r, rfl⟩
  · have hread (k : Nat) (hk : ∀ c, c < 20 → k ≠ (⟨a.toNat, c⟩ : Coord).cell) := setCells_row_read (text := text) (s := s) hk
    simpa [Nat.not_lt.2 ha] using hread
  · simp
  · simp

end Sys2Proof.Machine
end

section
/-! CLEAR, HOME and REFRESH, completed or ended at a NACK (43_display_memory_ops.md R187 to R191; 60_exceptions.md R235 to R238). -/

namespace Sys2Proof.Machine

/-- With six ACKs a request that sends one byte and then changes the state by `f` completes. -/
theorem exec_sendThen_of_acks {i : Instr} {b : Byte} {m : Mode} {f : State → State} {s : State}
    (hbody : bodyOf i s = (send b m s).andThen fun t => .done (f t)) (h : s.cfg.wf = true) (hs : s.accepts) (ha : s.acks 6) :
    exec i s = .next ((f (s.afterBytes (sendBytes s.cfg s.bl b m))).reply .ok) := by
  rw [exec_of_accepts hs, hbody, send_of_acks b m h ha, Run.andThen_done, Run.finish_done]

/-- A NACK at any of the six writes ends such a request before its change. -/
theorem exec_sendThen_of_nacksAt {i : Instr} {b : Byte} {m : Mode} {f : State → Run} {s : State} {k : Nat}
    (hbody : bodyOf i s = (send b m s).andThen f) (h : s.cfg.wf = true) (hs : s.accepts) (hk : k < 6) (hn : s.nacksAt k) :
    exec i s = .next (s.afterSendFailed b m k) := by
  rw [exec_of_accepts hs, hbody, send_of_nacksAt b m h hk hn, Run.andThen_raised, Run.finish_raised, State.takeError_transport,
    State.afterSendFailed]

theorem exec_clear_of_acks {s : State} (h : s.cfg.wf = true) (hs : s.accepts) (ha : s.acks 6) :
    exec .clear s = .next ((clearTail (s.afterBytes (sendBytes s.cfg s.bl s.cfg.selClear .cmd))).reply .ok) :=
  exec_sendThen_of_acks rfl h hs ha

/-- Settles O22: the change after CLEAR's command is `clearTail`. -/
theorem clearCompletesOrKeepsItsState : Obligations.ClearCompletesOrKeepsItsState := by
  unfold Obligations.ClearCompletesOrKeepsItsState
  refine fun s h hs => ⟨fun ha => ?_, fun k hk hn => exec_sendThen_of_nacksAt rfl h hs hk hn⟩
  rw [exec_clear_of_acks h hs ha]
  congr 1
  apply State.ext_fields (h8 := clearTail_grid _) <;> simp

/-- Settles O23: the change after HOME's command is the cursor and the settle marker. -/
theorem homeCompletesOrKeepsItsState : Obligations.HomeCompletesOrKeepsItsState := by
  unfold Obligations.HomeCompletesOrKeepsItsState
  refine fun s h hs => ⟨fun ha => ?_, fun k hk hn => exec_sendThen_of_nacksAt rfl h hs hk hn⟩
  exact exec_sendThen_of_acks (i := .home) (f := fun t => { t with cursor := ⟨0, 0⟩ }.delay .homeSettle) rfl h hs ha

/-- An entry of REFRESH takes 12 bus writes (R192 (h)). -/
theorem length_flatMap_entryBytes (s : State) (xs : List Coord) : (xs.flatMap (entryBytes s)).length = 12 * xs.length := by
  induction xs with
  | nil => rfl
  | cons x xs ih =>
    have hentry : (entryBytes s x).length = 12 := rfl
    rw [List.flatMap_cons, List.length_append, hentry, ih, List.length_cons]
    omega

theorem refreshEntries_append (xs ys : List Coord) (s : State) :
    refreshEntries (xs ++ ys) s = (refreshEntries xs s).andThen (refreshEntries ys) := by
  induction xs generalizing s with
  | nil => rfl
  | cons x xs ih =>
    rw [List.cons_append, refreshEntries, refreshEntries, Run.andThen_assoc]
    exact congrArg _ (funext ih)

/-- With all its writes ACKed a walk over valid entries completes. -/
theorem refreshEntries_of_acks {xs : List Coord} {s : State} (h : s.cfg.wf = true) (hxs : ∀ x ∈ xs, x.valid = true)
    (ha : s.acks (12 * xs.length)) : refreshEntries xs s = .done (s.afterBytes (xs.flatMap (entryBytes s))) := by
  rw [refreshEntries_eq h hxs, runBytes_of_acks _ (by rwa [length_flatMap_entryBytes])]

theorem exec_refresh_of_acks {s : State} (h : s.cfg.wf = true) (hxs : ∀ x ∈ s.dirty, x.valid = true) (hs : s.accepts)
    (ha : s.acks (12 * s.dirty.length)) :
    exec .refresh s = .next (State.reply { s.afterBytes (refreshBytes s) with dirty := [] } .ok) := by
  rw [exec_of_accepts hs, bodyOf, refreshBody, refreshEntries_of_acks h hxs ha, Run.andThen_done, Run.finish_done, refreshBytes]

/-- A NACK in the walk keeps the list, which is emptied after it (R188). -/
theorem exec_refresh_of_nacksAt {s : State} {k : Nat} (h : s.cfg.wf = true) (hxs : ∀ x ∈ s.dirty, x.valid = true) (hs : s.accepts)
    (hk : k < 12 * s.dirty.length) (hn : s.nacksAt k) :
    exec .refresh s = .next (s.afterNack (refreshBytes s) k).transportFailed := by
  rw [exec_of_accepts hs, bodyOf, refreshBody, refreshEntries_eq h hxs,
    runBytes_of_nacksAt _ (by rwa [length_flatMap_entryBytes]) hn, Run.andThen_raised, Run.finish_raised, State.takeError_transport,
    refreshBytes]

/-- Settles O20: the walk with every write ACKed, and with a NACK. -/
theorem refreshWritesBackEveryEntry : Obligations.RefreshWritesBackEveryEntry := by
  unfold Obligations.RefreshWritesBackEveryEntry
  exact fun s h hxs hs => ⟨exec_refresh_of_acks h hxs hs, fun k hk hn => exec_refresh_of_nacksAt h hxs hs hk hn⟩

theorem refreshEntry_of_invalid {x : Coord} (hx : x.valid = false) (s : State) :
    refreshEntry x s = .raised (.coordinate x.row (some x.col)) s := by
  rw [refreshEntry, hx, if_neg Bool.false_ne_true]

/-- Settles O21: the walk of the entries before, then the invalid entry. -/
theorem refreshHaltsAtAnInvalidEntry : Obligations.RefreshHaltsAtAnInvalidEntry := by
  unfold Obligations.RefreshHaltsAtAnInvalidEntry
  intro s before after x h hs hdirty hbefore hx ha
  rw [exec_of_accepts hs, bodyOf, refreshBody, hdirty, refreshEntries_append, refreshEntries_of_acks h hbefore ha, Run.andThen_done,
    refreshEntries, refreshEntry_of_invalid hx, Run.andThen_raised, Run.andThen_raised, Run.finish_raised,
    State.takeError_coordinate]
  rfl

end Sys2Proof.Machine
end

section
/-! The stale mirror after CLEAR (43_display_memory_ops.md R189, R190; 70_reset_and_hazards.md R270). -/

namespace Sys2Proof.Machine

/-- A CLEAR that leaves the mirror leaves the state accepting, with the grid and nothing dirty (R189, R190). -/
theorem exec_clear_keeping_mirror {s t : State} (h : s.cfg.wf = true) (hkeep : s.cfg.clearResetsMirror = false) (hs : s.accepts)
    (ha : s.acks 6) (he : exec .clear s = .next t) : t.cfg = s.cfg ∧ t.accepts ∧ t.grid = s.grid ∧ t.dirty = [] := by
  obtain rfl := Host.Outcome.next.inj ((exec_clear_of_acks h hs ha).symm.trans he)
  exact ⟨by simp, by simpa [State.accepts] using hs, by simp [hkeep], by simp⟩

/-- SET_ROW of a text that its row holds already only returns OK. -/
theorem exec_setRow_of_holds {s : State} {a : Byte} {text : List Byte} (hs : s.accepts) (ha : a.toNat ≤ 3)
    (h : ∀ c, c < 20 → s.cellAt ⟨a.toNat, c⟩ = (normalizeText s.cfg.space text).getD c 0) :
    exec (.setRow false a text) s = .next (s.reply .ok) := by
  rw [exec_setRow text hs ha, setCells_row_of_holds h]

/-- REFRESH with nothing dirty only returns OK. -/
theorem exec_refresh_of_nil {s : State} (h : s.cfg.wf = true) (hs : s.accepts) (hd : s.dirty = []) :
    exec .refresh s = .next (s.reply .ok) := by
  rw [exec_refresh_of_acks h (by simp [hd]) hs (by simp [hd, State.acks]), refreshBytes, hd, List.flatMap_nil, State.afterBytes_nil, ← hd]

/-- Settles O49: CLEAR leaves the row's codes, so SET_ROW sets no cell and REFRESH has no entry to write. -/
theorem mirrorIsStaleAfterClear : Obligations.MirrorIsStaleAfterClear := by
  unfold Obligations.MirrorIsStaleAfterClear
  intro s t u v a text h hkeep hs hacks ha hrow ht hu hv
  obtain ⟨hcfg, hacc, hgrid, hdirty⟩ := exec_clear_keeping_mirror h hkeep hs hacks ht
  have hheld : ∀ c, c < 20 → t.cellAt ⟨a.toNat, c⟩ = (normalizeText s.cfg.space text).getD c 0 := fun c hc => by
    rw [State.cellAt, hcfg, hgrid]
    exact hrow c hc
  obtain rfl := Host.Outcome.next.inj ((exec_setRow_of_holds hacc ha (by rwa [hcfg])).symm.trans hu)
  have hrefresh := exec_refresh_of_nil (s := t.reply .ok) (by rw [State.reply_cfg, hcfg, h]) hacc hdirty
  obtain rfl := Host.Outcome.next.inj (hrefresh.symm.trans hv)
  exact ⟨hdirty, rfl, by simp, hheld⟩

end Sys2Proof.Machine
end

section
/-! What SET_BACKLIGHT, REFRESH, CLEAR and HOME leave alone, whatever the outcome: each makes at most its own one change of the block
(43_display_memory_ops.md R187 to R191; 44_passthrough_ops.md R210). -/

namespace Sys2Proof.Machine

/-- `t` is `u` but for the interfaces and for `link_unknown`, which is not cleared. -/
structure KeepsBlock (u t : State) : Prop where
  cfg : t.cfg = u.cfg
  initState : t.initState = u.initState
  bl : t.bl = u.bl
  cursor : t.cursor = u.cursor
  devAddr : t.devAddr = u.devAddr
  halted : t.halted = u.halted
  grid : t.grid = u.grid
  dirty : t.dirty = u.dirty
  inputs : t.inputs = u.inputs
  link : u.linkUnknown = true → t.linkUnknown = true

theorem KeepsBlock.refl (u : State) : KeepsBlock u u := by constructor <;> simp

section
variable {u t : State} (h : KeepsBlock u t)
include h

theorem KeepsBlock.read (k : Nat) : Memory.read t.cfg.space t.grid k = Memory.read u.cfg.space u.grid k := by
  rw [h.cfg, h.grid]

theorem KeepsBlock.reply (st : Status) : KeepsBlock u (t.reply st) := { h with }

theorem KeepsBlock.written (b : Byte) : KeepsBlock u (t.written b) := { h with }

theorem KeepsBlock.transportFailed : KeepsBlock u t.transportFailed := { h with link := fun _ => rfl }

theorem KeepsBlock.dirtyEmptied : KeepsBlock { u with dirty := [] } { t with dirty := [] } := { h with dirty := rfl }

theorem KeepsBlock.homed : KeepsBlock { u with cursor := ⟨0, 0⟩ } (State.delay { t with cursor := ⟨0, 0⟩ } .homeSettle) :=
  { h with cursor := rfl }

theorem KeepsBlock.clearTail : KeepsBlock (clearTail u) (clearTail t) := by
  constructor <;> simp [h.cfg, h.initState, h.bl, h.devAddr, h.halted, h.grid, h.inputs]
  exact h.link

end

/-- The error, once taken, leaves the block of `u`. -/
def EndsInBlock (u : State) (e : Raise) (t : State) : Prop := KeepsBlock u (t.takeError e)

/-- A bus write touches the interfaces only, and TransportError sets `link_unknown`. -/
theorem keepsBlock_busRule (u : State) : BusRule (KeepsBlock u) (EndsInBlock u) where
  ack _ b h _ := h.written b
  nack _ b h _ := (h.written b).transportFailed

/-- A request whose body ends with the block of `u`, and where it raises with that of `v`, one of `s` and `u`, leaves one of the two. -/
theorem exec_keeps {i : Instr} {s t u v : State} (hv : v = s ∨ v = u)
    (hbody : (bodyOf i s).Sat (KeepsBlock u) (EndsInBlock v)) (he : exec i s = .next t) :
    KeepsBlock s t ∨ KeepsBlock u t := by
  rw [exec_eq] at he
  obtain rfl := Host.Outcome.next.inj he
  rcases runRequest_cases (needsReady i) (bodyOf i) s with ⟨r, -, hr⟩ | ⟨-, -, hr⟩ <;> rw [hr]
  · exact .inl ((KeepsBlock.refl s).reply _)
  · refine hbody.finish (Q := fun t => KeepsBlock s t ∨ KeepsBlock u t) (fun t ht => .inr (ht.reply .ok)) fun e t ht => ?_
    rcases hv with rfl | rfl
    · exact .inl ht
    · exact .inr ht

theorem exec_setBacklight_keeps {e : Bool} {s t : State} (he : exec (.setBacklight e) s = .next t) :
    KeepsBlock s t ∨ KeepsBlock { s with bl := e } t :=
  exec_keeps (.inr rfl) (send_sat (keepsBlock_busRule _) _ _ (.refl _)) he

theorem exec_refresh_keeps {s t : State} (hxs : ∀ x ∈ s.dirty, x.valid = true) (he : exec .refresh s = .next t) :
    KeepsBlock s t ∨ KeepsBlock { s with dirty := [] } t := by
  have hwalk := refreshEntries_sat (keepsBlock_busRule s) (xs := s.dirty) (fun x hx hbad => by simp [hxs x hx] at hbad) (.refl s)
  have hbody : (refreshBody s).Sat (KeepsBlock { s with dirty := [] }) (EndsInBlock s) := hwalk.andThen fun _ h => h.dirtyEmptied
  exact exec_keeps (i := .refresh) (.inl rfl) hbody he

theorem exec_clear_keeps {s t : State} (he : exec .clear s = .next t) : KeepsBlock s t ∨ KeepsBlock (clearTail s) t :=
  exec_keeps (i := .clear) (.inl rfl) (clearBody_sat (keepsBlock_busRule s) (fun _ h => h.clearTail) (.refl s)) he

theorem exec_home_keeps {s t : State} (he : exec .home s = .next t) : KeepsBlock s t ∨ KeepsBlock { s with cursor := ⟨0, 0⟩ } t := by
  have hbody : (homeBody s).Sat (KeepsBlock { s with cursor := ⟨0, 0⟩ }) (EndsInBlock s) :=
    (send_sat (keepsBlock_busRule s) _ _ (.refl s)).andThen fun _ h => h.homed
  exact exec_keeps (i := .home) (.inl rfl) hbody he

/-- Settles O31: each of the four leaves the block as it was, or with its own change made. -/
theorem displayAndBacklightFrame : Obligations.DisplayAndBacklightFrame := by
  unfold Obligations.DisplayAndBacklightFrame
  intro s t _ hxs
  refine ⟨fun e he => ?_, fun he => ?_, fun he => ?_, fun he => ?_⟩
  · rcases exec_setBacklight_keeps he with h | h
    · exact ⟨h.cfg, h.initState, .inl h.bl, h.cursor, h.devAddr, h.halted, h.dirty, h.inputs, h.link, h.read⟩
    · exact ⟨h.cfg, h.initState, .inr h.bl, h.cursor, h.devAddr, h.halted, h.dirty, h.inputs, h.link, h.read⟩
  · rcases exec_refresh_keeps hxs he with h | h
    · exact ⟨h.cfg, h.initState, h.bl, h.cursor, h.devAddr, h.halted, .inl h.dirty, h.inputs, h.link, h.read⟩
    · exact ⟨h.cfg, h.initState, h.bl, h.cursor, h.devAddr, h.halted, .inr h.dirty, h.inputs, h.link, h.read⟩
  · rcases exec_clear_keeps he with h | h
    · exact ⟨h.cfg, h.initState, h.bl, .inl h.cursor, h.devAddr, h.halted, .inl h.dirty, h.inputs, h.link, fun _ => h.read⟩
    · have hlink : s.linkUnknown = true → t.linkUnknown = true := by simpa using h.link
      have hread (hkeep : s.cfg.clearResetsMirror = false) (k : Nat) :
          Memory.read t.cfg.space t.grid k = Memory.read s.cfg.space s.grid k := by simp [h.read, hkeep]
      exact ⟨by simp [h.cfg], by simp [h.initState], by simp [h.bl], .inr (by simp [h.cursor]), by simp [h.devAddr],
        by simp [h.halted], .inr (by simp [h.dirty]), by simp [h.inputs], hlink, hread⟩
  · rcases exec_home_keeps he with h | h
    · exact ⟨h.cfg, h.initState, h.bl, .inl h.cursor, h.devAddr, h.halted, h.dirty, h.inputs, h.link, h.read⟩
    · exact ⟨h.cfg, h.initState, h.bl, .inr h.cursor, h.devAddr, h.halted, h.dirty, h.inputs, h.link, h.read⟩

end Sys2Proof.Machine
end

section
/-! SET_BACKLIGHT and WRITE_DATA, completed or ended at a NACK, and what every passthrough leaves alone (44_passthrough_ops.md R210 to R216;
30_encoding.md R87, R94). -/

namespace Sys2Proof.Machine

/-- A NACK at any of the six writes ends SET_BACKLIGHT with the bit already written (60_exceptions.md R236). -/
theorem exec_setBacklight_of_nacksAt {s : State} {k : Nat} (e : Bool) (h : s.cfg.wf = true) (hs : s.accepts) (hk : k < 6)
    (hn : s.nacksAt k) : exec (.setBacklight e) s = .next (State.afterSendFailed { s with bl := e } encNull .cmd k) := by
  have hsend := send_of_nacksAt (s := { s with bl := e }) encNull .cmd h hk hn
  rw [exec_of_accepts hs, bodyOf]
  exact congrArg (fun r => Host.Outcome.next r.finish) hsend

/-- Settles O24: the null command is sent from the state that holds the new bit. -/
theorem setBacklightWritesTheBitFirst : Obligations.SetBacklightWritesTheBitFirst := by
  unfold Obligations.SetBacklightWritesTheBitFirst
  exact fun s e h hs => ⟨exec_setBacklight_of_acks e h hs, fun k => exec_setBacklight_of_nacksAt e h hs⟩

/-- Settles O26: its body sends the byte as given. -/
theorem writeDataSendsItsByte : Obligations.WriteDataSendsItsByte := by
  unfold Obligations.WriteDataSendsItsByte
  exact fun s d h hs => ⟨exec_send_of_acks rfl h hs, fun k => exec_send_of_nacksAt rfl h hs⟩

/-- Everything the body of such an instruction can be: RESERVED refuses, each other one sends one byte. -/
theorem bodyOf_passthrough {i : Instr} (hi : isPassthrough i = true) (s : State) :
    bodyOf i s = .raised (.refuse .reservedOp) s ∨ ∃ b m, bodyOf i s = send b m s := by
  cases i
  case init | setRow | refresh | clear | home | setBacklight => cases hi
  case reserved => exact .inl rfl
  all_goals exact .inr ⟨_, _, rfl⟩

theorem exec_passthrough_keeps {i : Instr} {s t : State} (hi : isPassthrough i = true) (he : exec i s = .next t) : KeepsBlock s t := by
  have hbody : (bodyOf i s).Sat (KeepsBlock s) (EndsInBlock s) := by
    rcases bodyOf_passthrough hi s with hrefused | ⟨b, m, hsend⟩
    · rw [hrefused]
      exact (KeepsBlock.refl s).reply _
    · rw [hsend]
      exact send_sat (keepsBlock_busRule s) b m (.refl s)
  exact (exec_keeps (.inl rfl) hbody he).elim id id

/-- Settles O30: none of them has a change of the block of its own. -/
theorem passthroughFrame : Obligations.PassthroughFrame := by
  unfold Obligations.PassthroughFrame
  intro i s t hi _ he
  have h := exec_passthrough_keeps hi he
  exact ⟨h.cfg, h.initState, h.bl, h.cursor, h.devAddr, h.halted, h.dirty, h.inputs, h.link, h.read⟩

/-- Settles O27: each example is one send of fixed bytes, evaluated. -/
theorem specExampleBytes : Obligations.SpecExampleBytes := by
  unfold Obligations.SpecExampleBytes
  decide

end Sys2Proof.Machine
end

section
/-! The pre-checks of a request decide between a refusal that changes nothing and the request's own rule (60_exceptions.md R232, R233). -/

namespace Sys2Proof.Machine

/-- A reserved op code is 0xC or more, and decodes whatever its other fields are (30_encoding.md R94). -/
theorem exists_decode_reserved {w : Req16} (h : 0xC ≤ w.toNat / 4096) (p : List Byte) :
    ∃ op wrap z a, decode (.request w p) = .instr (.reserved op wrap z a p) := by
  have hop : reservedOp (reqOp w) = true := by rw [reservedOp, reqOp_toNat, decide_eq_true h]
  have hc := decodeRequest_reserved hop (reqWrap w) (reqZ w) (reqArg w) p
  rw [packReq16_fields] at hc
  exact ⟨_, _, _, _, hc⟩

theorem exists_decode_of_ne_rejected {c : Code} (h : decode c ≠ .rejected .reservedField) : ∃ i, decode c = .instr i := by
  cases hc : decode c with
  | instr i => exact ⟨i, rfl⟩
  | rejected e => cases e; exact absurd hc h

/-- Of the requests that are not reserved, INIT, with op code 0, is the one that does not need READY (R232). -/
theorem needsReady_iff {i : Instr} {w : Req16} {p : List Byte} (hc : decode (.request w p) = .instr i)
    (hop : w.toNat / 4096 < 0xC) : needsReady i = true ↔ w.toNat / 4096 ≠ 0 := by
  obtain ⟨hcode, hi⟩ := encode_of_decodeRequest hc
  rw [← reservedOp_eq_false_iff] at hop
  rw [← reqOp_toNat]
  cases i
  case reserved =>
    obtain ⟨rfl, -⟩ := Code.request.inj hcode
    rw [reqOp_pack] at hop
    exact absurd (hop.symm.trans hi) Bool.false_ne_true
  case init | setRow | refresh | clear | home | setBacklight | setEntryMode | setDisplayControl | setShift | setFunction
      | setCgramAddr | writeData =>
    obtain ⟨rfl, -⟩ := Code.request.inj hcode
    simp [needsReady]
  all_goals cases hcode

/-- A step on a request is its pre-checks' refusal, or the instruction it decodes to run: one case for each branch of R232's order. -/
theorem step_request_cases {s : State} {w : Req16} {p : List Byte} {rest : List Input} (h : s.inputs = .code (.request w p) :: rest) :
    (∃ r, precheck s w p = some r ∧ step s = .next (s.popInput.reply (.refused r))) ∨
    (precheck s w p = none ∧ ∃ i, decode (.request w p) = .instr i ∧ step s = exec i s.popInput) := by
  have hrejected := decoderRejectsExactlyReservedFields w p
  unfold precheck
  dsimp only
  split_ifs with hhalted hop hfields hwait
  · exact .inl ⟨.halted, rfl, step_code_of_halted hhalted h⟩
  · obtain ⟨op, wrap, z, a, hc⟩ := exists_decode_reserved hop p
    have hexec := (reservedOpIsRefused s.popInput op wrap z a p).1 (Bool.eq_false_of_not_eq_true hhalted)
    exact .inl ⟨.reservedOp, rfl, (step_instr h hc).trans hexec⟩
  · have hc := hrejected.2 ⟨Nat.lt_of_not_le hop, hfields⟩
    exact .inl ⟨.reservedField, rfl, by rw [step_rejected h hc, refuseEncoding_eq_reply, State.popInput_halted, if_neg hhalted]; rfl⟩
  · obtain ⟨i, hc⟩ := exists_decode_of_ne_rejected fun hc => hfields (hrejected.1 hc).2
    have hready := needsReady_iff hc (Nat.lt_of_not_le hop)
    have hgate : s.popInput.gate (needsReady i) = some .notReady := by
      simp [State.gate, hhalted, hready.2 hwait.1, hwait.2]
    exact .inl ⟨.notReady, rfl, by rw [step_instr h hc, exec_eq, runRequest_of_gate_some hgate]⟩
  · obtain ⟨i, hc⟩ := exists_decode_of_ne_rejected fun hc => hfields (hrejected.1 hc).2
    exact .inr ⟨rfl, i, hc, step_instr h hc⟩

/-- Settles O9: the two cases of a step on a request, with the rest of the inputs left. -/
theorem precheckedRequestIsRefusedOrRun : Obligations.PrecheckedRequestIsRefusedOrRun := by
  unfold Obligations.PrecheckedRequestIsRefusedOrRun
  intro s w p rest h
  have hpop : s.popInput = { s with inputs := rest } := by rw [State.popInput, h, List.tail_cons]
  rcases step_request_cases h with ⟨r, hpre, hstep⟩ | ⟨hpre, i, hc, hstep⟩ <;> rw [hpre, hstep, hpop]
  · exact ⟨fun r' hr => by cases hr; rfl, fun hnone => by cases hnone⟩
  · exact ⟨fun r hr => (by cases hr), fun _ => ⟨i, hc, rfl⟩⟩

end Sys2Proof.Machine
end

section
/-! Before READY no step depends on `dev_addr` (70_reset_and_hazards.md R261; 60_exceptions.md R232, R233). -/

namespace Sys2Proof.Machine

/-- INIT writes `dev_addr` first (42_initialization.md R161). -/
theorem initBody_devAddr (a d : Byte) (s : State) : initBody a { s with devAddr := d } = initBody a s := rfl

/-- Before READY an instruction is an INIT that overwrites `dev_addr`, or is refused whatever it holds. -/
theorem exec_devAddr_of_not_ready {s : State} (hs : s.initState ≠ .ready) (i : Instr) (d : Byte) :
    exec i { s with devAddr := d } = exec i s ∨
    ∃ r, exec i s = .next (s.reply (.refused r)) ∧ exec i { s with devAddr := d } = .next { s.reply (.refused r) with devAddr := d } := by
  have hrefused {r : Reason} (hg : s.gate (needsReady i) = some r) :
      exec i s = .next (s.reply (.refused r)) ∧ exec i { s with devAddr := d } = .next { s.reply (.refused r) with devAddr := d } := by
    have hg' : State.gate { s with devAddr := d } (needsReady i) = some r := hg
    exact ⟨by rw [exec_eq, runRequest_of_gate_some hg], by rw [exec_eq, runRequest_of_gate_some hg']; rfl⟩
  rcases s.gate_cases (needsReady i) with ⟨-, hg⟩ | ⟨-, -, -, hg⟩ | ⟨hh, hready, -⟩
  · exact .inr ⟨_, hrefused hg⟩
  · exact .inr ⟨_, hrefused hg⟩
  · cases i
    case init a =>
      rw [exec_init_of_not_halted hh, exec_init_of_not_halted (s := { s with devAddr := d }) hh, initBody_devAddr]
      exact .inl rfl
    case reserved op w z a p =>
      exact .inr ⟨.reservedOp, (reservedOpIsRefused s op w z a p).1 hh, (reservedOpIsRefused { s with devAddr := d } op w z a p).1 hh⟩
    all_goals exact absurd (hready rfl) hs

/-- Settles O45: RESET and INIT overwrite `dev_addr`, and an idle step and a refusal leave it. -/
theorem devAddrIsNotReadBeforeInit : Obligations.DevAddrIsNotReadBeforeInit := by
  unfold Obligations.DevAddrIsNotReadBeforeInit
  intro s d hs
  obtain ⟨t, ht⟩ := step_total s
  refine ⟨t, ht, ?_⟩
  rcases step_cases ht with ⟨h, rfl⟩ | ⟨rest, h, rfl⟩ | ⟨c, rest, h, ⟨i, hc, he⟩ | ⟨e, hc, rfl⟩⟩
  · exact .inr (step_nil h)
  · exact .inl (step_reset (s := { s with devAddr := d }) h)
  · rw [step_instr (s := { s with devAddr := d }) h hc, ← he]
    rcases exec_devAddr_of_not_ready (s := s.popInput) hs i d with hsame | ⟨r, hr, hr'⟩
    · exact .inl hsame
    · obtain rfl := Host.Outcome.next.inj (hr.symm.trans he)
      exact .inr hr'
  · right
    rw [step_rejected (s := { s with devAddr := d }) h hc, refuseEncoding_eq_reply, refuseEncoding_eq_reply]
    rfl

end Sys2Proof.Machine
end

section
/-! The RESET input, and the LCD words that wait for READY (70_reset_and_hazards.md R260, R261, R264; 60_exceptions.md R232). -/

namespace Sys2Proof.Machine

/-- Settles O35: the step sets each field of the block, and a cell of the blank grid reads SPACE. -/
theorem resetInputRestoresTheResetState : Obligations.ResetInputRestoresTheResetState := by
  unfold Obligations.ResetInputRestoresTheResetState
  intro s rest h
  have hrest : s.popInput.resetInput.inputs = rest := by
    rw [State.resetInput_inputs, State.popInput_inputs, h, List.tail_cons]
  exact ⟨_, step_reset h, rfl, rfl, rfl, rfl, rfl, fun k => Memory.read_nil _ k, rfl, rfl, rfl, rfl, hrest⟩

/-- Neither INIT nor RESERVED has an LCD word (30_encoding.md R88). -/
theorem needsReady_decodeLcd (w : LcdWord) : needsReady (decodeLcd w) = true := by
  unfold decodeLcd
  split_ifs <;> rfl

theorem State.gate_of_not_ready {s : State} (hh : s.halted = false) (hs : s.initState ≠ .ready) : s.gate true = some .notReady := by
  simp [State.gate, hh, hs]

/-- Settles O29: an LCD word needs READY, and the pre-check for it refuses. -/
theorem lcdWordsWaitForReady : Obligations.LcdWordsWaitForReady := by
  unfold Obligations.LcdWordsWaitForReady
  intro s w hh hs
  have hgate : s.gate (needsReady (decodeLcd w)) = some .notReady := by
    rw [needsReady_decodeLcd, State.gate_of_not_ready hh hs]
  rw [exec_eq, runRequest_of_gate_some hgate, State.reply]

end Sys2Proof.Machine
end
